-- ==== Sys2Proof/Word.lean ====
section
/-! DEFINITION. The word types of the module, the sparse table and buffer types that State and the
commands share, and the header every host command carries. All values are little-endian
(spec/00_scope.md, Writing conventions). -/

namespace Sys2Proof

/-- One byte. -/
abbrev Byte := BitVec 8
/-- A 16-bit half word. -/
abbrev Half := BitVec 16
/-- A 32-bit word: a vector lane, a command dword, a register of 32 bits. -/
abbrev Word := BitVec 32
/-- A 64-bit word: a route word, an attribute word, a register of 64 bits. -/
abbrev DWord := BitVec 64

/-- A sparse table keyed by a number. The reader of a table names the value of an unlisted key. -/
abbrev Table (α : Type) := List (Nat × α)

/-- A byte memory: (address, byte) pairs; an unlisted address reads as 0x00, which is what the
tailings wipe leaves (R20, R26) and what unwritten tensor space and deallocated blocks read as
(R166, R40). Its canonical form is `Mem.wf` in Machine/Store.lean. -/
abbrev Mem := Table Byte

/-- A data buffer that a command carries: its length in bytes and its bytes, unlisted offsets 0x00. -/
structure Buf where
  len : Nat
  bytes : Mem
deriving DecidableEq, Repr

/-- The empty buffer. -/
def Buf.none : Buf := { len := 0, bytes := [] }

/-- Who issued a host command: the function number f = 17 × port + v of R293, the submission
queue (0 is the admin queue) and the command identifier. -/
structure Src where
  fn : Nat
  sq : Nat
  cid : Nat
deriving DecidableEq, Repr

/-- What the row of Set Features that names no feature of the vendor's sets: Autonomous Power State Transition (R317),
and the features for which the table has no row of their own: Arbitration (R296), the events of type 7h enabled (R314)
and Non-Operational Power State Permissive Mode (R318). notes/assumptions/115.md. -/
inductive HostSetting where
  | apst (enable : Bool)
  /-- Arbitration Burst and the weights, less 1, of the low, medium and high classes. -/
  | arbitration (burst low medium high : Nat)
  /-- The event codes from 0x20 up that the controller does not have enabled. -/
  | eventsOff (codes : List Nat)
  | permissive (enable : Bool)
deriving DecidableEq, Repr

/-- An entry of a checkpoint manifest (Table 14.2) with what a checkpoint records of its extent (R347). -/
structure SetEntry where
  addr : Nat
  cls : Nat
  replica : Nat := 0
  length : Nat := 0
  owner : Nat := 0
  affinity : Nat := 0
  copyTier : Nat := 0
  pinned : Bool := false
  shared : Bool := false
deriving DecidableEq, Repr

/-- A frame of a checkpoint image (R357, R359): tile address, cut, contents, poisoned. -/
structure Frame where
  addr : Nat
  cut : Nat
  data : Mem
  poisoned : Bool := false
deriving DecidableEq, Repr

/-- What a message between modules carries beside its address and payload (R340-R343, R356, R357, R364). Table 13.4 has
a flag for a signal and no field for the others (notes/assumptions/58.md). -/
inductive MsgKind where
  /-- A forwarded write or a part of a Peer Copy. -/
  | write
  /-- A forwarded write of a signal word. -/
  | signal
  /-- The request to confirm an accept at the address, for an extent of `length` space tiles. -/
  | bind (length : Nat)
  /-- A space tile of cut `cut`. -/
  | tile (cut : Nat)
  /-- The set recorded with cut `cut`. -/
  | manifest (cut : Nat) (entries : List SetEntry)
  /-- The commit message of cut `cut`. -/
  | commit (cut : Nat)
  /-- A spare asks for the image held for the module that it takes over. -/
  | imageAsk
deriving DecidableEq, Repr

/-- Telemetry that a management period brings in from the power stages and the sensors (R428,
R448): averages over the period that ended. Watts are in units of 0.01 W, temperatures in 0.1 °C. -/
structure Telemetry where
  /-- Measured power of each region rail, in 0.01 W (domain F, R422). -/
  regionCw : List Nat
  dramCw : Nat
  seamCw : Nat
  hoistCw : Nat
  /-- Input voltage in units of 10 mV. -/
  inputMv10 : Nat
  /-- Input power in 0.1 W. -/
  inputDw : Nat
  /-- The 48 sensors in the order of Table 17.4, in 0.1 °C. -/
  temps : List Int
  /-- Power stages (0-15) that did not answer this pass (R448). -/
  silentStages : List Nat
  /-- Power stages that reported a restart in STATUS_WORD (R436). -/
  restartedStages : List Nat
  /-- (entry index of log 0xC3, status of Table 18.5) of the identity reads made in this pass (R436); index
  64 + k stands for the EEPROM of seam stack k (Table 18.6a). -/
  identityReads : List (Nat × Nat)
  /-- Traffic in MB/s of DRAM stacks 0-3 and then of seam stacks 0-31 (Table 18.2). -/
  traffic : List Nat
  /-- Symbols corrected in the period, by port × 4 + lane (R326). -/
  fecSymbols : List Nat
  /-- True when the core was still busy at the boundary before this one (R416). -/
  overrun : Bool
deriving DecidableEq, Repr

end Sys2Proof
end

