-- ==== Sys2Proof/Syntax.lean ====
section
/-! DEFINITION. The commands of the module: one constructor per row of spec/opcode_table.json, in the
table's order. A host command carries its issuer `c` and its command dwords as the spec lays them out;
an internal event carries the place where it happens and what the medium, the link, the sensors or
another module answer (what the module itself does not decide). -/

namespace Sys2Proof

/-- One command or event of the module. -/
inductive Instr where
  -- NVM command set and the write path (R262-R304, R469)
  | read (c : Src) (nsid slba blocks : Nat)
  | write (c : Src) (nsid slba blocks : Nat) (data : Mem)
  | writeZeroes (c : Src) (nsid slba blocks : Nat)
  | deallocate (c : Src) (nsid : Nat) (ranges : List (Nat × Nat))
  | flush (c : Src) (nsid : Nat)
  | verify (c : Src) (nsid slba blocks : Nat)
  /-- The data of write part `part` has arrived in the write buffer. -/
  | writeAccept (part : Nat)
  /-- The pSLC program of IU `iu` of part `part` and its read-back end; `worst` is the largest number of
  bits corrected in one codeword, none where a codeword does not decode in hard decision (R261). -/
  | iuReadBack (part iu : Nat) (worst : Option Nat)
  /-- Both copies of the oldest journal record not yet durable pass read-back. -/
  | journalRecordDurable
  | abort (c : Src) (sq cid : Nat)
  -- admin commands (R281-R321, R405-R407, R421)
  | identify (c : Src) (cns nsid : Nat)
  | getLogPage (c : Src) (lid offset len : Nat)
  | getFeatures (c : Src) (fid select : Nat)
  | mediaEarlyWarning (c : Src) (dw11 : Word) (save : Bool)
  | patrolPeriod (c : Src) (dw11 : Word) (save : Bool)
  | portMode (c : Src) (dw11 : Word) (save : Bool)
  | encryptNewNamespaces (c : Src) (dw11 : Word) (save : Bool)
  | powerCap (c : Src) (dw11 : Word) (save : Bool)
  | powerManagement (c : Src) (ps : Nat) (save : Bool)
  /-- `table` holds, per power state, the target state and the idle time in ms; it belongs to the setting `apst`. -/
  | autonomousPowerStateTransition (c : Src) (setting : HostSetting) (table : List (Nat × Nat))
  /-- `bytes` is the total size of the buffer granted. -/
  | hostMemoryBuffer (c : Src) (enable : Bool) (bytes : Nat)
  | powerStateIdleEntry (fn : Nat)
  | formatNvm (c : Src) (nsid ses : Nat)
  | sanitize (c : Src) (action : Nat)
  /-- `sel` 0 creates a namespace of `blocks` logical blocks, 1 deletes `nsid`. -/
  | namespaceManagement (c : Src) (sel nsid blocks : Nat)
  /-- `sel` 0 attaches, 1 detaches `nsid` at the controllers of the functions `fns`. -/
  | namespaceAttachment (c : Src) (sel nsid : Nat) (fns : List Nat)
  /-- `isCq` creates a completion queue, otherwise a submission queue on completion queue `cq`. -/
  | createIoQueue (c : Src) (isCq : Bool) (qid entries cq prio : Nat)
  | asynchronousEventRequest (c : Src)
  | firmwareImageDownload (c : Src) (offset : Nat) (data : Buf)
  | firmwareCommit (c : Src) (action slot : Nat)
  -- computational programs (R144-R146, R305-R308)
  | loadProgram (c : Src) (index kind : Nat) (image : Buf)
  | unloadProgram (c : Src) (index : Nat)
  | programActivationManagement (c : Src) (index : Nat) (activate : Bool)
  | executeProgram (c : Src) (index : Nat) (params : Buf)
  /-- `bufLen` is the length of the data buffer and `sgl` tells that an SGL describes it. -/
  | executeScan (c : Src) (index : Nat) (params : Buf) (bufLen : Nat) (sgl : Bool)
  -- subsystem local memory (R309)
  | memoryRead (c : Src) (addr len : Nat)
  | memoryWrite (c : Src) (addr : Nat) (data : Buf)
  /-- Copies `blocks` logical blocks at `slba` of `nsid` to `addr`, or back when `toNvm`. -/
  | memoryCopy (c : Src) (addr nsid slba blocks : Nat) (toNvm : Bool)
  -- vendor admin commands of Table 12.6 (R166-R184, R310-R312)
  | extentCreate (c : Src) (dw10 : Word)
  | extentFree (c : Src) (dw10 dw11 : Word)
  | extentFreeEffect (die slot : Nat)
  | extentPin (c : Src) (dw10 dw11 dw12 : Word)
  | extentUnpin (c : Src) (dw10 dw11 : Word)
  | extentPlace (c : Src) (dw10 dw11 dw12 : Word)
  | tensorSpaceConfigure (c : Src) (dw10 : Word)
  | quotaSet (c : Src) (dw10 dw11 : Word)
  | hoistListAttach (c : Src) (dw10 dw11 : Word) (image : Buf)
  /-- `status` is the die status that the die reports. -/
  | directProgram (c : Src) (dw10 dw11 : Word) (data : Buf) (status : Word)
  | directRead (c : Src) (dw10 dw11 dw12 : Word)
  | directErase (c : Src) (dw10 : Word) (status : Word)
  | directMediaReserve (c : Src) (dw10 : Word)
  -- fabric commands of Table 13.7
  | fabricConfigure (c : Src) (dw10 dw11 : Word)
  | peerWindowAccept (c : Src) (dw10 dw11 dw12 : Word)
  | peerWindowBind (c : Src) (dw10 dw11 dw12 dw13 dw14 dw15 : Word)
  | peerWindowRelease (c : Src) (dw10 dw11 : Word)
  | peerCopy (c : Src) (dw10 dw11 dw12 dw13 dw14 dw15 : Word)
  -- checkpoint commands of Table 14.5
  | checkpointReserve (c : Src) (dw10 : Word)
  | checkpointConfigure (c : Src) (dw10 dw11 dw12 dw13 : Word) (manifest : Buf)
  | checkpointCut (c : Src) (dw10 dw11 dw12 : Word)
  | checkpointWait (c : Src) (dw10 dw11 : Word)
  | checkpointRestore (c : Src) (dw10 dw11 dw12 : Word)
  | takeover (c : Src) (dw10 : Word)
  | interruptionReport (c : Src)
  -- security commands of Table 16.8
  | provisionBegin (c : Src)
  | certificateInstall (c : Src) (dw10 dw11 : Word) (chain : Buf)
  | lifeCycleNonce (c : Src)
  | lifeCycleTransition (c : Src) (dw10 : Word) (auth : Buf)
  | programSigningConfigure (c : Src) (dw10 : Word) (key : Buf)
  -- NVMe-MI requests (R447)
  | readNvmeMiDataStructure (dtype : Nat)
  | subsystemHealthStatusPoll
  | controllerHealthStatusPoll (fn : Nat)
  | configurationGet (id : Nat)
  | configurationSet (id : Nat) (value : Word)
  | vpdRead (offset len : Nat)
  | vpdWrite (offset : Nat) (data : List Byte)
  -- SPDM requests over the DOE mailbox of a PF (R398-R402)
  | getVersion (port : Nat)
  | getCertificate (port slot offset len : Nat)
  | challenge (port slot : Nat) (nonce : List Byte)
  | getMeasurements (port index : Nat) (nonce : List Byte)
  /-- `ownerAuth` tells that the requester authenticated with a chain that ends at the owner root of
  slot 1. -/
  | keyExchange (port : Nat) (encapKey : List Byte) (ownerAuth : Bool)
  | heartbeat (port session : Nat)
  | programKeySet (port session : Nat) (dw10 : Word) (key : Buf)
  -- controllers and host-side resets (R294-R299)
  | sqDoorbell (fn sq tail : Nat)
  | controllerEnable (fn : Nat) (cc : Word)
  | controllerReady (fn : Nat)
  | controllerDisable (fn : Nat)
  | nvmSubsystemReset (fn : Nat)
  | functionLevelReset (fn : Nat)
  -- registers (R6, R31, R190, R195, R207, R324, R379, R381, R415, R418, R433)
  | registerWrite (fn offset : Nat) (wide : Bool) (value : DWord)
  | windowAccess (fn offset : Nat) (wide isWrite : Bool) (value : DWord)
  /-- `counter` 0 and 1 name the face die counters, 2 the hoist die counter. -/
  | kclkLowRead (fn counter : Nat)
  | scrubPassStart (fn : Nat) (value : Word)
  | scrubPassDone
  | haulEngineErrorClear (fn region : Nat) (value : Word)
  | haulEngineReArm (fn region : Nat) (value : Word)
  | lineDescriptorWrite (fn region line : Nat) (desc : BitVec 512)
  | extentSnapshotSelect (fn die : Nat) (value : Word)
  | portDisable (fn port : Nat)
  | portEnable (fn port : Nat)
  | eccTestArm (fn : Nat) (value : Word)
  | monitorConfigure (fn monitor : Nat) (cfg0 cfg1 : DWord)
  | maxStepWrite (fn region : Nat) (value : Word)
  -- pins and input power (R22, R439-R441, R457-R463)
  | perstAssert (port : Nat)
  /-- `speed` and `width` are what the link trains to with its host (Table 12.11 codes; 0: no link). -/
  | perstDeassert (port speed width : Nat)
  | attnPress
  | attentionBlinkExpire
  | pwrdisAssert
  | pwrdisRelease
  | sidebandStuck (input : Nat)
  | mainSwitchClose
  /-- `standby` tells whether 3V3_AUX stays present. -/
  | undervoltage (standby : Bool)
  | overvoltage (standby : Bool)
  | inputRecovered
  | powerLoss
  | watchdogExpiry
  | bootChain
  -- resets (R20-R25, R382-R391)
  | regionReset (region kind memory bench : Nat) (addr : DWord)
  | faceDieReset (die kind memory detail : Nat) (addr : DWord)
  | moduleReset (kind memory : Nat)
  | coldReset (cause : Nat)
  /-- `failed` lists the arrays that fail the built-in test, `duration` is in µs. -/
  | resetComplete (failed : List Nat) (duration : Nat)
  /-- `sample`: the sample reads of R282 that another step than the first ends or that correct bits, each as the operands
  of `flashReadComplete`. -/
  | mount (sample : List (Nat × Nat × Nat))
  -- memory protection (R368-R386)
  | dramErasureModeEnter (stack coreDie : Nat)
  | secondDieErasureCriteria (stack coreDie : Nat)
  /-- The scrub read of the word or codeword at `addr` of `memory` (Table 15.8 codes, 0x0C the management
  core memory) on `place` (bench, region or die), in scrub pass number `pass`, which is the triggered one
  when `triggered`. `errors` is what the medium presents there: one count of bits for SRAM, symbols in error
  by core die for DRAM, empty for none beyond those planted. -/
  | scrubRead (memory place addr pass : Nat) (triggered : Bool) (errors : List Nat)
  | dieFabricError (die : Nat)
  -- benches (R86-R152, R471)
  | sequencerStep (bench : Nat)
  | endComplete (bench : Nat)
  | barrierRelease (bench barrier : Nat)
  | waitLimitExpire (bench : Nat)
  | arrayLoad (bench array : Nat)
  /-- `wait` is the number of cycles the load waited for its source. -/
  | loadLatch (bench array wait : Nat)
  /-- `residueOk` is the residue comparison of R89. -/
  | arrayStream (bench array : Nat) (residueOk : Bool)
  | streamEnd (bench array : Nat)
  | arrayDrain (bench array : Nat)
  | drainEnd (bench array : Nat)
  | gateFire (bench : Nat)
  | ld (bench : Nat)
  | st (bench : Nat)
  | add (bench : Nat)
  | sub (bench : Nat)
  | mul (bench : Nat)
  | fma (bench : Nat)
  | max (bench : Nat)
  | min (bench : Nat)
  | cmplt (bench : Nat)
  | sel (bench : Nat)
  | div (bench : Nat)
  | sqrt (bench : Nat)
  | rsqrt (bench : Nat)
  | exp (bench : Nat)
  | cvt (bench : Nat)
  | rsum (bench : Nat)
  | rmax (bench : Nat)
  | rmin (bench : Nat)
  | quant (bench : Nat)
  | encode (bench : Nat)
  | routePost (bench : Nat)
  | crSet (bench : Nat)
  | nop (bench : Nat)
  | remoteRouteDeliver (bench : Nat)
  | walkerSearch (bench : Nat)
  | walkerExpansion (bench query : Nat)
  /-- `readable` is false when the flash translation layer cannot read the page. -/
  | walkerPageReadDone (bench page : Nat) (readable : Bool)
  | burstGrant (region : Nat)
  | requestComplete (region line : Nat)
  -- scans (R36-R58)
  | mapEpochPin (scan : Nat)
  | sievePage (scan stack : Nat) (readable : Bool)
  | scanComplete (scan : Nat)
  | freePoolCriticalFloor
  -- the tier manager (R171-R178, R209, R353)
  | moveStart (die : Nat)
  /-- `readable` is false when a T3 source tile cannot be read even after reconstruction. -/
  | spaceTileLanded (die slot : Nat) (readable : Bool)
  | hoistEngineReArm (die : Nat)
  | firstTouchCopyDone (die slot tile : Nat)
  -- flash (R258-R288)
  /-- A read of page `ppa` that step `step` of Table 11.4 ends (5: none does), with `correctedBits` bits corrected; at step 5 they are
  the mask of the page's codewords that fail. -/
  | flashReadComplete (ppa step correctedBits : Nat)
  | readCountRefresh (block : Nat)
  | flashEraseComplete (block : Nat)
  /-- The copies of the fold of block `block` have settled and been read back. -/
  | fold (block : Nat)
  | garbageCollection
  | gcRelocate (worst : Option Nat)
  | writeThrottle
  | patrolRead (ppa step correctedBits : Nat)
  | dieRetire (stack die : Nat)
  | stackRetire (stack : Nat)
  | rebuildComplete (stack : Nat)
  | readOnlyEndOfLife
  -- peer ports and the fabric (R322-R345)
  /-- `present`: a far end is detected. `failed`: lanes failing equalisation. `farMask`: its offer. -/
  | portTrain (port : Nat) (present : Bool) (failed farMask : Nat)
  | exchange (port farIdent farPort farEpoch : Nat)
  /-- `far`: none when the retraining fails, otherwise the lanes of this end that fail in it and the far end's offer. -/
  | retrain (port : Nat) (far : Option (Nat × Nat))
  /-- `good` tells that the codeword decodes. -/
  | flitReceive (port : Nat) (control : BitVec 20) (good : Bool) (flit : Mem)
  | replayTimeout (port : Nat)
  /-- A DATA message: its sequence, address, payload and what it carries. -/
  | data (src seq addr : Nat) (payload : Buf) (kind : MsgKind)
  /-- `imageLost` reports that the partner lost its image (R359), `denied` that the far end turned down
  the bind or copy acknowledged (R340, R344). -/
  | ack (src cum : Nat) (imageLost denied : Bool)
  /-- An event of Table 13.6: `subject` is port + 16 × module, or coordinates + 8192 × spare. -/
  | event (base originator kind subject : Nat)
  /-- `down` lists the (module, port) pairs that the far end's record holds as down, `assumed` the
  (coordinates, spare) pairs. -/
  | state (port farEpoch : Nat) (down assumed : List (Nat × Nat))
  | resync (src next : Nat)
  | retransmitTimeout (dst : Nat)
  | alternatePortSwitch (port : Nat)
  | portDownPropose (port : Nat)
  | portUpPropose (port : Nat)
  | epochEnter
  | routeTimeout (coord : Nat)
  -- checkpoints (R350-R364)
  | cutDue
  | cutProtect
  | flashCheckpointCommit
  /-- The partner's committed cut of the image and the one before it (0: none), the manifests recorded
  with them and every frame it holds; `committed` 0 when it held no committed image or has failed. -/
  | takeoverCopyDone (committed previous : Nat) (manifests : List (Nat × List SetEntry))
      (frames : List Frame)
  -- the management core and power (R416-R450)
  | managementPeriod (t : Telemetry)
  | uptimeWrite
  | fastLimiterEngage
  | thermalShutdown (sensor : Nat)
  | thermalShutdownExit
  | regionSleepEnter (region : Nat)
  | regionWake (region : Nat)
  | wakeComplete (region : Nat)
  | assayWindowClose (monitor : Nat)
  | attnRelease
  | seamLinkRetrain (stack : Nat)
  | stripeParityProgrammed (stripe : Nat)
  /-- The next page of the flash stream has been programmed; `worst` is as for `iuReadBack`. -/
  | flashStreamPageReadBack (worst : Option Nat)
deriving DecidableEq, Repr

end Sys2Proof
end

