-- ==== Sys2Proof/Machine/Store.lean ====
section
/-! DEFINITION. Reading and writing the sparse tables and byte memories. A memory is kept in one
canonical form, `Mem.wf`: addresses strictly rising and no entry equal to 0x00. -/

namespace Sys2Proof

/-- The value that table `t` holds at `k`, or `d` where it lists none. -/
def tget {α : Type} (d : α) : Table α → Nat → α
  | [], _ => d
  | (a, x) :: r, k => if a = k then x else tget d r k

/-- Table `t` without any entry for `k`. -/
def tdel {α : Type} : Table α → Nat → Table α
  | [], _ => []
  | (a, x) :: r, k => if a = k then tdel r k else (a, x) :: tdel r k

/-- `(k, v)` put before the first entry of a larger key. -/
def tins {α : Type} (k : Nat) (v : α) : Table α → Table α
  | [] => [(k, v)]
  | (a, x) :: r => if k < a then (k, v) :: (a, x) :: r else (a, x) :: tins k v r

/-- Table `t` with `v` at `k`. -/
def tset {α : Type} (t : Table α) (k : Nat) (v : α) : Table α := tins k v (tdel t k)

/-- Table `t` with the value at `k` changed by `f`, `d` standing for an unlisted value. -/
def tmod {α : Type} (d : α) (t : Table α) (k : Nat) (f : α → α) : Table α :=
  tset t k (f (tget d t k))

/-- True when table `t` lists `k`. -/
def thas {α : Type} : Table α → Nat → Bool
  | [], _ => false
  | (a, _) :: r, k => a == k || thas r k

/-- The keys that a table lists. -/
def tkeys {α : Type} (t : Table α) : List Nat := t.map (·.1)

/-- The byte at address `a`; an unlisted address reads as 0x00. -/
def Mem.get (m : Mem) (a : Nat) : Byte := tget 0 m a

/-- Memory `m` with byte `v` at `a`; writing 0x00 removes the entry. -/
def Mem.put (m : Mem) (a : Nat) (v : Byte) : Mem :=
  if v = 0 then tdel m a else tins a v (tdel m a)

/-- Memory `m` with `bs` written from address `a` upwards. -/
def Mem.putBytes (m : Mem) (a : Nat) : List Byte → Mem
  | [] => m
  | b :: bs => Mem.putBytes (m.put a b) (a + 1) bs

/-- The `n` bytes of `m` from address `a` upwards. -/
def Mem.getBytes (m : Mem) (a : Nat) : Nat → List Byte
  | 0 => []
  | n + 1 => m.get a :: Mem.getBytes m (a + 1) n

/-- The entries of `m` at addresses from `a` to `a + n - 1`, moved to start at address `b`. -/
def Mem.slice (m : Mem) (a n b : Nat) : Mem :=
  m.filterMap fun e => if a ≤ e.1 ∧ e.1 < a + n then some (e.1 - a + b, e.2) else none

/-- Memory `m` with every byte from `a` to `a + n - 1` zeroed. -/
def Mem.clear (m : Mem) (a n : Nat) : Mem :=
  m.filter fun e => decide (e.1 < a ∨ a + n ≤ e.1)

/-- Every entry of `src` put into `m`, one after another. -/
def Mem.putAll (m : Mem) : List (Nat × Byte) → Mem
  | [] => m
  | (a, v) :: r => Mem.putAll (m.put a v) r

/-- Memory `m` with the `n` bytes of `src` at `a` copied to address `b`. -/
def Mem.copyIn (m : Mem) (b : Nat) (src : Mem) (a n : Nat) : Mem :=
  Mem.putAll (m.clear b n) (src.slice a n b)

/-- Entries strictly rising from `lo`, none of them 0x00. -/
def Mem.wfFrom : Nat → Mem → Bool
  | _, [] => true
  | lo, (a, v) :: r => decide (lo ≤ a) && decide (v ≠ 0) && Mem.wfFrom (a + 1) r

/-- The canonical form of a memory: addresses strictly rising, no entry equal to 0x00. -/
def Mem.wf (m : Mem) : Bool := Mem.wfFrom 0 m

/-- The bytes of `v` in little-endian order, `n` of them. -/
def leBytes : Nat → Nat → List Byte
  | 0, _ => []
  | n + 1, v => BitVec.ofNat 8 (v % 256) :: leBytes n (v / 256)

/-- The number that a little-endian list of bytes spells. -/
def ofLeBytes : List Byte → Nat
  | [] => 0
  | b :: bs => b.toNat + 256 * ofLeBytes bs

/-- The little-endian number of `n` bytes at address `a`. -/
def Mem.getLe (m : Mem) (a n : Nat) : Nat := ofLeBytes (m.getBytes a n)

/-- Memory `m` with the `n`-byte little-endian number `v` at `a`. -/
def Mem.putLe (m : Mem) (a n v : Nat) : Mem := m.putBytes a (leBytes n v)

/-- The 32-bit word at `a`. -/
def Mem.word (m : Mem) (a : Nat) : Word := BitVec.ofNat 32 (m.getLe a 4)

/-- The 64-bit word at `a`. -/
def Mem.dword (m : Mem) (a : Nat) : DWord := BitVec.ofNat 64 (m.getLe a 8)

/-- True when the `n` bytes of `m` from `a` on all read 0x00. -/
def Mem.zeroAt (m : Mem) (a n : Nat) : Bool :=
  m.all fun e => decide (e.1 < a ∨ a + n ≤ e.1 ∨ e.2 = 0)

/-- A memory that holds the bytes `bs` from address 0. -/
def Mem.ofBytes (bs : List Byte) : Mem := Mem.putBytes [] 0 bs

/-- The bytes of a buffer, in order. -/
def Buf.toBytes (b : Buf) : List Byte := b.bytes.getBytes 0 b.len

/-- A buffer that holds `bs`. -/
def Buf.ofBytes (bs : List Byte) : Buf := { len := bs.length, bytes := Mem.ofBytes bs }

end Sys2Proof
end

