-- ==== Sys2Proof/Machine/Bits.lean ====
section
/-! DEFINITION. Bit fields, sign extension and the CRC-32C of record pages, lode pages and flits. -/

namespace Sys2Proof

/-- Bits [hi:lo] of the number `v`, as the bit ranges of the spec are written. -/
def bitsOf (v hi lo : Nat) : Nat := (v / 2 ^ lo) % 2 ^ (hi + 1 - lo)

/-- Bit `i` of the number `v`. -/
def bitOf (v i : Nat) : Bool := (v / 2 ^ i) % 2 = 1

/-- 1 for true and 0 for false. -/
def b2n (b : Bool) : Nat := if b then 1 else 0

/-- The two's complement reading of the low `w` bits of `v`. -/
def signed (w v : Nat) : Int :=
  let u := v % 2 ^ w
  if u < 2 ^ (w - 1) then (u : Int) else (u : Int) - (2 ^ w : Nat)

/-- The low `w` bits of the integer `i`, as a number. -/
def wrapNat (w : Nat) (i : Int) : Nat := (i % ((2 ^ w : Nat) : Int)).toNat

/-- `i` limited to the range from `lo` to `hi`. -/
def clampInt (lo hi i : Int) : Int := if i < lo then lo else if hi < i then hi else i

/-- `n` limited to at most `hi`. -/
def capNat (hi n : Nat) : Nat := if n ≤ hi then n else hi

/-- The quotient of `a` by `b` rounded up. -/
def ceilDiv (a b : Nat) : Nat := (a + b - 1) / b

/-- Eight shifts of the reflected CRC-32C (Castagnoli) register. -/
def crcShift : Nat → Nat → Nat
  | 0, c => c
  | n + 1, c => crcShift n (if c % 2 = 1 then (c / 2) ^^^ 0x82F63B78 else c / 2)

/-- The CRC-32C register after the bytes `bs`. -/
def crcBytes : Nat → List Byte → Nat
  | c, [] => c
  | c, b :: bs => crcBytes (crcShift 8 (c ^^^ b.toNat)) bs

/-- CRC-32C (Castagnoli polynomial) of a list of bytes (Tables 2.1, 10.4 and 13.4). -/
def crc32c (bs : List Byte) : Nat := crcBytes 0xFFFFFFFF bs ^^^ 0xFFFFFFFF

/-- The CRC-32C of the `n` bytes of `m` at `a` with the 4 bytes at offset `f` taken as zero. -/
def crcWithout (m : Mem) (a n f : Nat) : Nat :=
  crc32c (((m.slice a n 0).clear f 4).getBytes 0 n)

/-- The values of `xs` at the positions where `f` holds of the index. -/
def pickIdx {α : Type} (f : Nat → Bool) (xs : List α) : List α :=
  (xs.zipIdx.filter fun e => f e.2).map (·.1)

/-- The first index of `0 … n-1` at which `f` holds. -/
def firstIdx (f : Nat → Bool) (n : Nat) : Option Nat := (List.range n).find? f

/-- The number of bits set among the low `n` bits of `v`. -/
def popCount (n v : Nat) : Nat := ((List.range n).filter fun i => bitOf v i).length

/-- `xs` with the value at position `i` changed by `f`. -/
def listMod {α : Type} (xs : List α) (i : Nat) (f : α → α) : List α := xs.modify i f

/-- `xs` without repeats of `x`, with `x` put in ascending order. -/
def insSorted (x : Nat) : List Nat → List Nat
  | [] => [x]
  | y :: ys => if x < y then x :: y :: ys else if x = y then y :: ys else y :: insSorted x ys

/-- `x` put before the first element that it may stand before under `le`. -/
def insBy {α : Type} (le : α → α → Bool) (x : α) : List α → List α
  | [] => [x]
  | y :: ys => if le x y then x :: y :: ys else y :: insBy le x ys

/-- A list in the order `le`; equals keep their order. -/
def sortBy {α : Type} (le : α → α → Bool) (l : List α) : List α := l.foldr (insBy le) []

/-- The whole part of a square root, for numbers below 2^80. -/
def isqrt (n : Nat) : Nat :=
  (List.range 40).reverse.foldl (fun r b => if (r + 2 ^ b) * (r + 2 ^ b) ≤ n then r + 2 ^ b else r) 0

end Sys2Proof
end

