-- ==== Sys2Proof/Machine/State.lean ====
section
/-! DEFINITION. The state of the module: plain data, every piece of state the spec names, with the
value each has right after a cold reset of a factory-new module (State.reset). A structure's field
defaults are its reset values; where the spec gives none, notes/assumptions/2.md names the value. -/

namespace Sys2Proof.Machine

/-- Why the module stops with a fault. -/
inductive Fault where
  /-- Raised by registerWrite and windowAccess: the offset lies outside the function's BAR0, which is 64 MiB on a
  PF and 16 KiB on a VF (R28, Table 12.1), or is not aligned to the access. Safe: the model stops where no such
  access can be addressed. -/
  | outsideBar0
deriving DecidableEq, Repr

/-- Why a command has no meaning in the model. -/
inductive Refusal where
  /-- Raised by exec for a command whose meaning is not written yet. Safe: no effect is claimed. -/
  | notModelled (mnemonic : String)
deriving DecidableEq, Repr

/-! ## Manufacture and clocks -/

/-- Grade of the part number (Table 0.1). -/
inductive Grade where
  | A | B | C
deriving DecidableEq, Repr

/-- What manufacture fixes (R1-R3, R110, R392, R320): the part, its fuses and its straps. -/
structure Mfg where
  /-- Capacity 128 when true, 64 otherwise. -/
  cap128 : Bool := true
  grade : Grade := .A
  /-- Global numbers of the fused-off matrix arrays (R110). -/
  fusedOff : List Nat := []
  serial : DWord := 0
  /-- Levels of the module ID strap pins: position, spare, spare_index (R455). -/
  pinPosition : Nat := 0
  pinSpare : Bool := false
  pinSpareIndex : Nat := 0
  /-- Blocks bad at manufacture (Table 11.6 state 3). -/
  badBlocks : List Nat := []
deriving DecidableEq, Repr

/-- The KCLK counters of the three dies and their 32-bit read latches (R19, R415). -/
structure Clock where
  face0 : DWord := 0
  face1 : DWord := 0
  hoist : DWord := 0
  latch0 : Option Word := none
  latch1 : Option Word := none
  latchH : Option Word := none
deriving DecidableEq, Repr

/-! ## Completions, events and other outputs -/

/-- Completion status: the standard statuses the spec names, and the vendor statuses of Table 0.5. -/
inductive Status where
  | success
  | invalidField | invalidOpcode | commandSequenceError | lbaOutOfRange | invalidNamespace
  | invalidFormat | unrecoveredRead | writeFault | namespaceWriteProtected | commandInterrupted
  | abortRequested | accessDenied | sglLengthInvalid | insufficientCapacity | capacityExceeded
  | invalidLogPage | invalidFirmwareSlot | invalidFirmwareImage | firmwareProhibited
  | invalidQueueId | invalidQueueSize | completionQueueInvalid | namespaceIdUnavailable
  | notAttached | alreadyAttached | aerLimitExceeded | invalidInterruptVector
  /-- A vendor status 0xC0-0xC7 (Table 0.5). -/
  | vendor (code : Nat)
deriving DecidableEq, Repr

/-- A power state descriptor of Table 12.10: watts, and the latencies in µs. -/
structure PowerDescriptor where
  operational : Bool
  watts : Nat
  entry : Nat
  exit : Nat
deriving DecidableEq, Repr

/-- The controller data that Identify reports (Table 12.4). -/
structure IdentifyController where
  /-- MN: the part number of R1 padded with spaces to the 40 bytes of the field. -/
  modelNumber : String
  mdts : Nat
  vwc : Nat
  awun : Nat
  awupf : Nat
  npwg : Nat
  nows : Nat
  nn : Nat
  tnvmcap : Nat
  hmpre : Nat
  hmmin : Nat
  hmminds : Nat
  hmmaxd : Nat
  npss : Nat
  apsta : Nat
  /-- The power state descriptors, PS0 first (R316). -/
  powerStates : List PowerDescriptor
  /-- FRMW: the number of slots, and whether slot 1 is read-only. -/
  firmwareSlots : Nat
  slot1ReadOnly : Bool
  /-- SQES and CQES: required and largest entry sizes as powers of two (Table 12.3). -/
  sqes : Nat
  cqes : Nat
  dlfeat : Nat
  capTo : Nat
  capMqes : Nat
deriving DecidableEq, Repr

/-- The namespace data that Identify reports (Table 12.4): size, capacity and use in logical blocks, and the figures of
Table 12.4 that stand in NVMe's namespace data structure; all zero for a namespace that is not active (R297). -/
structure IdentifyNamespace where
  blocks : Nat := 0
  encrypted : Bool := false
  nawun : Nat := 0
  nawupf : Nat := 0
  npwg : Nat := 0
  npdg : Nat := 0
  nows : Nat := 0
  dlfeat : Nat := 0
deriving DecidableEq, Repr

/-- What a command answers beside its status and dwords. -/
inductive Reply where
  | none
  | data (b : Buf)
  | controller (d : IdentifyController)
  | namespaceData (d : IdentifyNamespace)
  | list (xs : List Nat)
  /-- Two signed or generated byte strings: the signed content and the signature over it. -/
  | signed (content signature : List Byte)
  | number (n : Nat)
  /-- An SPDM ERROR or an NVMe-MI error response. -/
  | error
deriving DecidableEq, Repr

/-- A posted completion entry. -/
structure Completion where
  src : Src
  status : Status
  dw0 : Word := 0
  dw1 : Word := 0
  reply : Reply := .none
deriving DecidableEq, Repr

/-- A write of the module to the memory of the host for a command (R292), in the order in which it is issued: the
command's data, its completion entry, and the MSI-X message of the queue's vector. -/
inductive HostWrite where
  | data (src : Src) (relaxed : Bool)
  | entry (src : Src) (relaxed : Bool)
  | message (fn vector : Nat) (relaxed : Bool)
deriving DecidableEq, Repr

/-- A reported Asynchronous Event of type 7h (R314): the controller it goes to, code and log page. -/
structure Aen where
  fn : Nat
  code : Nat
  log : Nat
deriving DecidableEq, Repr

/-- The answer of a register access (R31): offset, value read (zero for a write). -/
structure RegReply where
  offset : Nat
  isWrite : Bool
  value : DWord
deriving DecidableEq, Repr

/-- A flit: its type and message fields (Table 13.4). -/
structure Flit where
  kind : Nat := 0
  vc : Nat := 0
  dst : Nat := 0
  src : Nat := 0
  epoch : Nat := 0
  msgSeq : Nat := 0
  address : Nat := 0
  payload : Buf := Buf.none
  last : Bool := true
  signal : Bool := false
  /-- The port on which it came in, none for one of this module, and the virtual channel that it had then (R333). -/
  came : Option Nat := none
  vcIn : Nat := 0
deriving DecidableEq, Repr

/-- A codeword put on a port: a flit with the link control word and the credits that go with it (R327-R329, Tables 13.3
and 13.4). An idle one carries credits only. -/
structure Codeword where
  port : Nat := 0
  seq : Nat := 0
  ack : Nat := 0
  nak : Bool := false
  idle : Bool := false
  credits : List Nat := [0, 0, 0, 0]
  flit : Flit := {}
deriving DecidableEq, Repr

/-! ## Host port: controllers, queues, namespaces, programs -/

/-- A submission queue (R295, R296): size, head, tail, completion queue, priority class. -/
structure Sq where
  entries : Nat := 2
  head : Nat := 0
  tail : Nat := 0
  cq : Nat := 0
  prio : Nat := 0
deriving DecidableEq, Repr

/-- A completion queue created: entries, its MSI-X vector and whether it interrupts (Table 12.1, R295). -/
structure Cq where
  entries : Nat := 2
  vector : Nat := 0
  interrupts : Bool := true
deriving DecidableEq, Repr

/-- The arbitration of a controller's submission queues (R296): Arbitration Burst and the weights, less 1, as set; the
queue whose burst is under way and what is left of the burst, none for no limit; the queue last served of each
class (0 admin, 1 urgent, 2 high, 3 medium, 4 low); and the credits of the three weighted classes. -/
structure Arbiter where
  burst : Nat := 0
  high : Nat := 0
  medium : Nat := 0
  low : Nat := 0
  cur : Nat := 0
  left : Option Nat := some 0
  last : Table Nat := []
  credits : Table Nat := []
deriving DecidableEq, Repr

/-- One NVMe controller of a function (R293-R300, R316-R318). -/
structure Controller where
  en : Bool := false
  rdy : Bool := false
  cfs : Bool := false
  /-- CC as last written with EN set; it holds the arbitration selected (AMS). -/
  cc : Word := 0
  sqs : Table Sq := []
  /-- Completion queues created, by identifier. -/
  cqs : Table Cq := []
  /-- The arbitration of the submission queues (R296). -/
  arb : Arbiter := {}
  /-- Event codes from 0x20 up that this controller has not enabled (R314). -/
  eventsOff : List Nat := []
  /-- Outstanding Asynchronous Event Requests, by command identifier, oldest first. -/
  aers : List Nat := []
  /-- Events raised with no request outstanding: (code, log page), oldest first. -/
  aenQueue : List (Nat × Nat) := []
  /-- Power state that this controller asks for, and its last operational one (R316, R317). -/
  ps : Nat := 0
  lastOpPs : Nat := 0
  savedPs : Nat := 0
  /-- Non-operational power state asked for while commands are outstanding (R317). -/
  idlePs : Option Nat := none
  /-- Admin queue attributes (AQA) as last written. -/
  aqa : Word := 0
  apst : Bool := false
  apstTable : List (Nat × Nat) := []
  /-- Non-Operational Power State Permissive Mode (R318). -/
  permissive : Bool := true
  /-- Host Memory Buffer bytes in use (R300). -/
  hmbBytes : Nat := 0
  /-- KCLK count of the last command's end, for the APST idle time. -/
  idleSince : Nat := 0
  /-- Quotas in space tiles for T1, T2, T3; none is the whole pool (R169). -/
  quota1 : Option Nat := none
  quota2 : Option Nat := none
  quota3 : Option Nat := none
deriving DecidableEq, Repr

/-- A namespace (R297, R405): size in logical blocks, controllers attached, encryption key number. -/
structure Ns where
  active : Bool := false
  blocks : Nat := 0
  attached : List Nat := []
  encrypted : Bool := false
  /-- Which key of the generator holds; a crypto-erase draws the next one (R407). -/
  key : Nat := 0
  /-- Number of map epochs passed: one per applied record (Table 0.4, map epoch). -/
  epoch : Nat := 0
deriving DecidableEq, Repr

/-- A logical bench bound to a bench (R141). -/
structure BenchBind where
  logical : Nat := 0
  bench : Nat := 0
  logicalRegion : Nat := 0
deriving DecidableEq, Repr

/-- An entry of a hoist list (Table 7.6). -/
structure HoistEntry where
  extent : Nat := 0
  layer : Nat := 0
  tier : Nat := 0
  releaseAfter : Bool := false
deriving DecidableEq, Repr

/-- An attached hoist list (R184) with its current layer (R185). -/
structure HoistList where
  layers : Nat := 1
  lookahead : Nat := 0
  wrap : Bool := false
  entries : List HoistEntry := []
deriving DecidableEq, Repr

/-- A loaded program of a function (R305). -/
structure Prog where
  loaded : Bool := false
  /-- 1 sieve predicate, 2 bench program. -/
  kind : Nat := 0
  image : Buf := Buf.none
  binds : List BenchBind := []
  barrierMasks : List Nat := []
  /-- Operation number of the execute that runs, if one does. -/
  running : Option Nat := none
  params : List Int := []
  /-- Arrivals: barrier number to the logical benches that have arrived. -/
  arrived : Table (List Nat) := []
  /-- Logical benches whose END has completed in this execution. -/
  ended : List Nat := []
  hoist : Option HoistList := none
  /-- Hoist list that takes effect with the next execute command. -/
  hoistNext : Option HoistList := none
  hoistLayer : Option Nat := none
deriving DecidableEq, Repr

/-- What an outstanding host command waits for. -/
inductive OpKind where
  /-- A write, Write Zeroes or Deallocate: its parts still to end, and the status so far. -/
  | write (parts : List Nat) (st : Status)
  | flush (writes : List Nat)
  /-- An execute of the bench program `prog` (key 16 × fn + index). -/
  | execute (prog : Nat) (params : List Int) (started : Bool)
  | scan (scan : Nat)
  | memRead (addr len : Nat)
  | memWrite (addr : Nat) (data : Buf)
  | memCopy (addr nsid slba blocks : Nat) (toNvm : Bool)
  /-- A Free that waits for the executes `waits` (R166). -/
  | free (die slot : Nat) (waits : List Nat)
  | place (die slot tier : Nat) (pin : Bool)
  | unload (prog : Nat)
  /-- A creation that waits for evictions to free its space tiles. -/
  | create (dw10 : Nat)
  | peerBind (die slot coord : Nat)
  /-- A Peer Copy of `len` bytes at `addr` to `remote` of coordinates `dst`. -/
  | peerCopy (addr remote len dst : Nat) (sent : Bool)
  | cut (number : Nat) (wantFlash : Bool)
  | ckptWait (number : Nat)
  | restore (number source : Nat)
  | takeover (coord : Nat)
  | firmwareCommit (slot : Nat)
deriving DecidableEq, Repr

/-- An outstanding command of the host. -/
structure Op where
  id : Nat
  src : Src
  kind : OpKind
  /-- Hoist die KCLK count at submission (source 0x06 of Table 18.2). -/
  since : Nat := 0
deriving DecidableEq, Repr

/-- The host port, its controllers, namespaces, programs and what they have answered. -/
structure HostPort where
  /-- Mode in effect: false single, true dual (R290). -/
  dual : Bool := false
  p0Speed : Nat := 0
  p0Width : Nat := 0
  p1Speed : Nat := 0
  p1Width : Nat := 0
  /-- Link speed and width that the host offers, by port whose PERST# is deasserted (R460). -/
  offers : Table (Nat × Nat) := []
  /-- Power state in effect (Table 12.11). -/
  powerState : Nat := 0
  controllers : Table Controller := []
  namespaces : Table Ns := []
  programs : Table Prog := []
  ops : List Op := []
  nextOp : Nat := 0
  completions : List Completion := []
  aens : List Aen := []
  /-- Writes to host memory issued for commands, oldest first (R292). -/
  hostWrites : List HostWrite := []
  /-- Tick from which the patrol waits in PS3 or PS4, and ticks that its pass has waited so (R318). -/
  patrolHeld : Option Nat := none
  patrolLost : Nat := 0
  /-- The function whose burst is or was last taken across the controllers (R296). -/
  turn : Nat := 33
  regReplies : List RegReply := []
  /-- Set Features values in effect and saved (R281, R285, R405, R421). -/
  earlyWarning : Word := 0x0A1402FF#32
  patrolDays : Nat := 7
  encryptNew : Bool := true
  powerCap0 : Nat := 650
  powerCap1 : Nat := 650
  /-- Free values drawn for contents that the spec leaves to NVMe (model's own counter,
  notes/assumptions/24.md). -/
  draws : Nat := 0
deriving DecidableEq, Repr

/-! ## Benches -/

/-- A matrix array operation issued and not started (R125). -/
inductive ArrayOp where
  /-- With the tile's header once the array's header buffer has taken it (R91), at its own addresses. -/
  | load (logical addr : Nat) (inT0 : Bool) (pc : Nat) (header : Option Mem)
  | stream (logical addr bank first acc n fmt : Nat) (noAdd : Bool) (tile : Option (Nat × Bool)) (pc : Nat)
  | drain (logical block out bank first n fmt : Nat) (pc : Nat)
deriving DecidableEq, Repr

/-- An accumulator bank (R98): rows by 256 × row + column, token-scale latches, the channel latch
(256 scales and n_count) and the tile count. -/
structure Bank where
  acc : Table Word := []
  tokScale : Table Word := []
  chan : Option (List Word × Nat) := none
  tiles : Nat := 0
deriving DecidableEq, Repr

/-- A weight tile held by an array: the header fields the table builder uses, and what the code
registers hold as the code bytes of the image, row k from byte k × L on (R62, R63, R87). -/
structure TileRegs where
  format : Nat := 1
  blockPresent : Nat := 0
  kCount : Nat := 1
  nCount : Nat := 1
  codebook : List Int := []
  scales : List Word := []
  codes : Mem := []
deriving DecidableEq, Repr

/-- What an array is doing, one of the three kinds that may run at once (R102). -/
structure StreamRun where
  bank : Nat
  fmt : Nat
  first : Nat
  acc : Nat
  n : Nat
  noAdd : Bool
  act : Nat
  logical : Nat
  pc : Nat
deriving DecidableEq, Repr

/-- A running code load: the tile being shifted in. -/
structure LoadRun where
  tile : TileRegs
  logical : Nat
  /-- True for the reload of a shared array (R143). -/
  reload : Bool
deriving DecidableEq, Repr

/-- One physical matrix array with its table builder (R87-R104). -/
structure Arr where
  /-- The code registers and the header that the table builder uses; every code is 0 before the first load. -/
  tile : TileRegs := {}
  /-- The 24-bit partial-sum registers, cell (k, n) at 256 × k + n (R75, R87, R90); an unlisted one holds 0. -/
  psum : Table (BitVec 24) := []
  /-- Logical array whose codes it holds (code ownership, R143, R144). -/
  owner : Option Nat := none
  load : Option LoadRun := none
  streams : List StreamRun := []
  /-- Bank being drained, if one is. -/
  drain : Option Nat := none
  banks : Table Bank := []
  queue : List ArrayOp := []
  loadCyc : DWord := 0
  rows : DWord := 0
  retired : Bool := false
  retirePending : Bool := false
deriving DecidableEq, Repr

/-- The state field of BN_SEQ_STAT (Table 5.11). -/
inductive SeqState where
  | unbound | bound | running | waiting | ended | faulted
deriving DecidableEq, Repr

/-- A loaded address generator descriptor (Table 5.4). -/
structure AddrGen where
  space : Nat := 0
  param : Nat := 0
  laneStride : Int := 0
  base : Int := 0
  stride : List Int := []
deriving DecidableEq, Repr

/-- The sequencer of a bench (R115-R135, R148). -/
structure Sequencer where
  st : SeqState := .unbound
  pc : Nat := 0
  /-- Wait causes (bits of Table 5.11): fence, gate, request, route, barrier, array queue, vector,
  walker. -/
  waitCause : List Nat := []
  /-- Face die KCLK count at which the step began to wait, gate time excluded. -/
  waitSince : Option Nat := none
  /-- Face die KCLK count at which the wait on the gate began; its time is not counted (R130). -/
  gateSince : Option Nat := none
  /-- The step's BARRIER waits for release; the rest of the step follows it. -/
  atBarrier : Option Nat := none
  /-- The step's arrival waits for the release of an earlier arrival at that barrier (R133). -/
  arriving : Option Nat := none
  /-- The skip of the step at which the sequencer stands has been evaluated and was not taken (R118 step 1). -/
  skipTested : Bool := false
  /-- The actions of an END step have been performed and it waits as a fence does (R134). -/
  finishing : Bool := false
  loopCount : List (Option Nat) := [none, none, none, none]
  loopIdx : List Nat := [0, 0, 0, 0]
  ags : List (Option AddrGen) := [none, none, none, none]
  countRegs : List Nat := [0, 0, 0, 0]
  gateCount : Nat := 0
  /-- Tile address of each logical array's most recent LOAD, and whether it lies in T0 (R143). -/
  tileAddr : Table (Nat × Bool) := []
  routeQueue : List DWord := []
  /-- Remote posts on their way here: (word, posting bench), oldest first (R151). -/
  routeInbox : List (DWord × Nat) := []
  faultCode : Nat := 0
  faultPc : Nat := 0
  waitLimit : Nat := 0x0BB8
deriving DecidableEq, Repr

/-- What binding writes for a bench (Tables 5.14, 5.15, R141, R142). -/
structure Binding where
  prog : Nat := 0
  fn : Nat := 0
  logical : Nat := 0
  logicalRegion : Nat := 0
  arrayNeed : Nat := 0
  bankMask : Nat := 0
  /-- Physical array of logical array 0-3. -/
  arrayMap : List Nat := [0, 0, 0, 0]
  /-- Physical group of logical group 0-3. -/
  groupMap : List Nat := [0, 0, 0, 0]
  /-- Logical groups that its logical region uses: the union of the group masks (R141). -/
  groupMask : Nat := 0
  /-- Physical bank of logical bank b of logical array a at position 4a + b. -/
  bankMap : List Nat := [0, 1, 2, 3, 0, 1, 2, 3, 0, 1, 2, 3, 0, 1, 2, 3]
  stepCount : Nat := 0
  entryPc : Nat := 0
  kernelWords : Nat := 0
  jtCount : Nat := 0
  descCount : Nat := 0
deriving DecidableEq, Repr

/-- The vector unit (R136, R471): registers by number and lane, the kernel that runs. -/
structure VectorUnit where
  regs : Table (Table Word) := []
  running : Bool := false
  /-- Vector word to issue next. -/
  vpc : Nat := 0
  base : Nat := 0
  /-- Space of the base address: 1 T0, 2 tensor space. -/
  space : Nat := 0
  /-- pc of the step that launched the kernel. -/
  launchPc : Nat := 0
deriving DecidableEq, Repr

/-- The batch gate and the row queue of a bench (R105-R108). -/
structure Gate where
  /-- Stamps of the pending rows, oldest first (face die KCLK counts). -/
  rows : List Nat := []
  waiting : Bool := false
  /-- Set when the gate has fired for the waiting step and its rows are handed over. -/
  fired : Bool := false
  lastByDeadline : Bool := false
  fillTarget : Nat := 0x100
  deadlineTicks : Nat := 0
  fillCount : DWord := 0
  deadlineCount : DWord := 0
deriving DecidableEq, Repr

/-- A candidate of a query: distance, node, expanded (R243). -/
structure Cand where
  dist : Int
  node : Nat
  expanded : Bool := false
deriving DecidableEq, Repr

/-- One query of a walker search (R238, R243, R242). -/
structure Query where
  stopped : Bool := false
  stopReason : Nat := 0
  q : List Cand := []
  r : List (Int × Nat) := []
  /-- Bits set in the visited filter (R247). -/
  seen : List Nat := []
  stall : Nat := 0
  visits : Nat := 0
  expansions : Nat := 0
  pagesRead : Nat := 0
  pagesShared : Nat := 0
  dangling : Nat := 0
  tombstoned : Nat := 0
  filteredOut : Nat := 0
  /-- Expansions in flight: distance and node of candidates taken that wait for their page. -/
  inFlight : List (Int × Nat) := []
  /-- Next node of an exhaustive scan (R253). -/
  nextNode : Nat := 0
deriving DecidableEq, Repr

/-- A running walker search (R240, R249, R250). -/
structure Search where
  kind : Nat := 4
  k : Nat := 1
  ef : Nat := 1
  useFilter : Bool := false
  exhaustive : Bool := false
  lode : Nat := 0
  generation : DWord := 0
  maxVisits : Nat := 1
  patience : Nat := 0
  inflight : Nat := 1
  queryAddr : Nat := 0
  resultAddr : Nat := 0
  pageBuf : Nat := 0
  pageBufCount : Nat := 0
  /-- The lode header and the filter program image, as read when the search started. -/
  header : Mem := []
  filter : Mem := []
  queries : List Query := []
  /-- Page buffer slots: (page, use order); unlisted slots are empty. A page whose read is in flight
  holds its slot. -/
  slots : Table (Nat × Nat) := []
  useClock : Nat := 0
  /-- Pages whose read is in flight. -/
  reading : List Nat := []
  pc : Nat := 0
deriving DecidableEq, Repr

/-- The walker of a bench (R238, R255). -/
structure Walker where
  retired : Bool := false
  retirePending : Bool := false
  /-- A launched search that has not been validated yet: descriptor address, space and pc. -/
  launch : Option (Nat × Nat × Nat) := none
  search : Option Search := none
  lastCause : Nat := 0
  visits : DWord := 0
  expansions : DWord := 0
  pages : DWord := 0
  shared : DWord := 0
deriving DecidableEq, Repr

/-- A bench (R5, R86-R163): its store, memories, units, registers and counters. -/
structure Bench where
  retired : Bool := false
  retirePending : Bool := false
  bind : Option Binding := none
  seq : Sequencer := {}
  /-- Bench store T0, 8 MiB. -/
  t0 : Mem := []
  /-- Step words by pc, vector words, descriptors and jump table entries (R139). -/
  steps : Table (BitVec 256) := []
  kernel : Table DWord := []
  descs : Table (BitVec 256) := []
  jumps : Table Half := []
  arrays : Table Arr := []
  vec : VectorUnit := {}
  gate : Gate := {}
  walker : Walker := {}
  /-- BN_ARITH_STAT (Table 3.7): nonfinite_in, out_saturated, fp_invalid, fp_overflow. -/
  nonfiniteIn : Bool := false
  outSaturated : Bool := false
  fpInvalid : Bool := false
  fpOverflow : Bool := false
  satCount : Word := 0
  seqSteps : DWord := 0
  routePosted : DWord := 0
  routeDiscarded : DWord := 0
  skippedSteps : DWord := 0
  jtabTaken : DWord := 0
  /-- Spare rows used of 64 (R377). -/
  spareRows : Nat := 0
  /-- The unit counter that free values are drawn with (model's own field, notes/assumptions/5.md). -/
  draws : Nat := 0
deriving DecidableEq, Repr

/-! ## Haul engines -/

/-- A raised request (R194): raise order, raising bench, index, loop index, parameters. -/
structure Req where
  order : Nat
  line : Nat
  bench : Nat
  index : Nat
  loopIdx : Nat
deriving DecidableEq, Repr

/-- A request line (R192): descriptor and request index. -/
structure Line where
  desc : BitVec 512 := 0
  index : Nat := 0
  /-- The gather list held from request 0 on: the source rows (R198). -/
  gather : List Nat := []
deriving DecidableEq, Repr

/-- What a request moves: nothing, a copy of bytes, or source row `row` as token row `r` of a tile of
`rows` rows, with the tile fill when `r` is 0 (R196-R198). -/
inductive Burst where
  | idle
  | copy (len : Nat)
  | row (row r rows : Nat)
deriving DecidableEq, Repr

/-- A burst that has finished its data-path cycles (R203): its request, what it moved and where to, whether a row is to
be appended (R199), and, where its writes crossed the die bridge, the free value that answers them (R205). -/
structure Moved where
  order : Nat
  burst : Burst
  dst : Nat
  append : Bool
  crossing : Option Nat := none
deriving DecidableEq, Repr

/-- A haul engine (R191-R210). -/
structure Haul where
  lines : Table Line := []
  /-- Requests not completed, in raise order. -/
  reqs : List Req := []
  /-- The requests whose burst has finished its data-path cycles (R203), as their grants left them. -/
  done : List Moved := []
  nextOrder : Nat := 0
  armed : Nat := 0xFFFF
  stopped : Bool := false
  errValid : Bool := false
  descDropped : Bool := false
  overrun : Bool := false
  err0 : DWord := 0
  err1 : DWord := 0
  lastChannel : Nat := 15
  /-- Consecutive boundaries at which each ready channel was passed over (R201). -/
  passed : Table Nat := []
  bursts : DWord := 0
  bytes : DWord := 0
  stops : DWord := 0
  /-- Groups retired in service (Table 1.6). -/
  retiredGroups : List Nat := []
  /-- Groups pending retirement (R33). -/
  pendingGroups : List Nat := []
deriving DecidableEq, Repr

/-! ## Regions -/

/-- The state of a region in FD_REGION_STATE (Table 1.5). -/
inductive RegionState where
  | active | sleep | waking | reset | retired
deriving DecidableEq, Repr

/-- A register access that waits for its region's wake (R31). -/
structure HeldAccess where
  fn : Nat
  offset : Nat
  wide : Bool
  isWrite : Bool
  value : DWord
deriving DecidableEq, Repr

/-- A region (R17, R30, R417-R420): clock, sleep, haul engine, T1 slice repairs. -/
structure Region where
  st : RegionState := .sleep
  /-- KCLK ticks until the PLL of a region that enters SLEEP stops: 2 in the first 0.5 µs of the entry, 0
  otherwise (R419, R420). -/
  entering : Nat := 0
  step : Nat := 0
  halved : Bool := false
  shareW : Nat := 0
  maxStep : Nat := 0x12
  sleepIdle : Nat := 0x012C
  /-- Face die KCLK edge since which the region has been idle (R419). -/
  idleSince : Option Nat := none
  wakeCount : DWord := 0
  held : List HeldAccess := []
  haul : Haul := {}
  retirePending : Bool := false
  /-- The region was asleep or waking for part of the period (R423). -/
  sleptPeriod : Bool := true
  /-- T1 spare rows used of 512, and rows with uncorrectable words with the up-time of each (R377,
  R449). -/
  spareRows : Nat := 0
  uncorrRows : List (Nat × Nat) := []
deriving DecidableEq, Repr

/-! ## Tensor space -/

/-- Who waits for an access to the tensor space (R175, R180, R190). -/
inductive Waiter where
  /-- A unit of a bench: 0 the vector unit, 1 the walker, 2 + a array a. -/
  | unit (bench unit : Nat)
  /-- The oldest burst of a line of the haul engine of a region. -/
  | line (region line : Nat)
  /-- A host command. -/
  | op (id : Nat)
  | scan (id : Nat)
  /-- A forwarded write from a module, by its message sequence (R342). -/
  | peer (src seq : Nat)
deriving DecidableEq, Repr

/-- An extent of a slot (R164, R171-R183, Table 7.10). Tile sets are ascending lists of tile numbers. -/
structure Extent where
  /-- 0 FREE, 1 RESIDENT, 2 MOVING, 3 LOST. -/
  st : Nat := 0
  length : Nat := 0
  copyTier : Nat := 0
  homeTier : Nat := 0
  destTier : Nat := 0
  /-- Region of the die whose slice holds its T1 copy, or receives it (R170). -/
  slice : Nat := 0
  pinned : Bool := false
  /-- A pin that takes effect when the move ends (R181). -/
  pinOnCommit : Bool := false
  shared : Bool := false
  owner : Nat := 0
  affinity : Nat := 0
  lastUse : Nat := 0
  copyDirty : List Nat := []
  landed : List Nat := []
  pageDirty : List Nat := []
  writeProtect : List Nat := []
  poison : List Nat := []
  /-- Class of the running move (R173): 1 demand, 2 hoist, 3 eviction, 4 place. -/
  moveClass : Nat := 0
  /-- Who waits for an access to it, with the space tiles that a read waits for, none for a write (R171, R180), and the
  hoist die KCLK count since which it has waited for the moving extent (R175, R431). -/
  waiting : List (Waiter × List Nat × Option Nat) := []
  /-- A hoist move of it has been issued and runs (FD_TS_HOIST_LATE). -/
  hoisted : Bool := false
  /-- The executes, by operation number, that have written its copy since that was made: they own its dirty tiles
  (R25). -/
  dirtyBy : List Nat := []
  /-- The space tile that the tier manager has sent first has left (R177). -/
  started : Bool := false
deriving DecidableEq, Repr

/-- A move that waits for a move slot (R171, R173). -/
structure MoveReq where
  slot : Nat
  tier : Nat
  cls : Nat
  order : Nat
  /-- The tier manager issued it for a hoist list, whatever class it has now (R185, R190). -/
  hoisted : Bool := false
deriving DecidableEq, Repr

/-- A write-protected space tile on which a write waits (R353): since which hoist die KCLK count, and whether its
first-touch copy is under way, which it is not while the shadow space is full (R355). -/
structure Touch where
  slot : Nat
  tile : Nat
  since : Nat
  copying : Bool
deriving DecidableEq, Repr

/-- The tier manager of a face die (R164-R190). -/
structure Die where
  slots : Table Extent := []
  queue : List MoveReq := []
  nextOrder : Nat := 0
  extSel : Nat := 0
  data0 : DWord := 0
  data1 : DWord := 0
  data2 : DWord := 0
  lastExhaust : Nat := 0
  exhausted : Bool := false
  moveAbandoned : Bool := false
  promoted : DWord := 0
  demoted : DWord := 0
  dropped : DWord := 0
  waitCyc : DWord := 0
  hoistLate : DWord := 0
  /-- Codeword numbers (address div 256) entered in the poison table (R376). -/
  poison : List Nat := []
  /-- 64 KiB frames that have left the T2 pool (R377). -/
  framesLost : Nat := 0
  /-- Contents of the shadow pages, by the tensor-space address that they shadow. -/
  shadowMem : Mem := []
  /-- Write-protected space tiles on which a write waits. -/
  touched : List Touch := []
  /-- Held in RESET until the next cold reset (R438). -/
  held : Bool := false
  /-- Number of the T3 key drawn (R405). -/
  t3Key : Nat := 0
  /-- Error record of hoist-die engine d (R209). -/
  hoist : Haul := {}
deriving DecidableEq, Repr

/-- A peer window binding or acceptance (R340-R343). -/
structure Window where
  die : Nat
  slot : Nat
  /-- True for an accept, false for a bind. -/
  accept : Bool
  fn : Nat
  coord : Nat
  /-- Accept: program index and logical bench of the signal. -/
  index : Nat := 0
  logical : Nat := 0
  /-- Bind: remote base and signal offset; confirmed by the remote end. -/
  remote : Nat := 0
  signalAt : Option Nat := none
  confirmed : Bool := false
deriving DecidableEq, Repr

/-- The tensor space as a whole: contents by 48-bit address (contents do not depend on the tier,
R174), T3 size, reserve. -/
structure TensorSpace where
  mem : Mem := []
  t3Gb : Nat := 2000
  reserveGb : Nat := 48
  dies : Table Die := []
  windows : List Window := []
deriving DecidableEq, Repr

/-! ## Flash -/

/-- A physical block (R256, R258, R263, Table 11.6). -/
structure Blk where
  pslcErases : Nat := 0
  qlcErases : Nat := 0
  /-- 0 in use, 1 free, 2 retired in service, 3 bad at manufacture. -/
  st : Nat := 1
  /-- 0 pool, 1 checkpoint region, 2 metadata region, 3 direct media. -/
  role : Nat := 0
  /-- Programmed as QLC since the last erase. -/
  qlc : Bool := false
  strikes : Nat := 0
  reads : Nat := 0
  /-- Pages programmed since the last erase: of a QLC block, four for each wordline whose coarse pass is done. -/
  nextPage : Nat := 0
  /-- Journal sequence when its programming began (R282). -/
  written : Nat := 0
  erasing : Bool := false
  /-- A refresh of the block is due (R277, R280). -/
  refresh : Bool := false
  /-- Journal sequence at which the last valid page became invalid (R272). -/
  freedAt : Nat := 0
deriving DecidableEq, Repr

/-- A journal record (Table 11.3). An IU key is nsid × 2^40 + IU number; locations are physical pages. -/
inductive JRec where
  /-- The logical blocks written and every IU with its new location. -/
  | write (nsid slba blocks : Nat) (ius : List (Nat × Nat))
  /-- An IU range unmapped. -/
  | dealloc (nsid first count : Nat)
  | relocate (key old new : Nat)
  | fold (key old new : Nat)
  | mapCkpt (covers : Nat)
  | eraseIntent (block : Nat)
  | eraseDone (block pslc qlc : Nat)
  /-- Kind 0 block, 1 die, 2 stack. -/
  | retire (kind item : Nat)
  | unreadable (nsid lba count : Nat)
deriving DecidableEq, Repr

/-- One part of a host write in the write buffer (R262-R266, R469). -/
structure Part where
  id : Nat
  op : Nat
  src : Src
  nsid : Nat
  slba : Nat
  blocks : Nat
  /-- Data by byte offset from the part's first block; empty for Write Zeroes and Deallocate. -/
  data : Mem := []
  /-- IU range to unmap: first and count. -/
  unmap : Nat × Nat := (0, 0)
  /-- 0 transferring, 1 accepted, 2 every IU programmed and read back, 3 record queued, 4 durable,
  5 void. -/
  stage : Nat := 0
  /-- Acceptance order (R302). -/
  order : Nat := 0
  /-- IUs to program: number, attempts made, location + 1 once read back. -/
  ius : List (Nat × Nat × Nat) := []
  /-- Stripes that hold its IUs (R266). -/
  stripes : List Nat := []
  /-- Face die whose DRAM holds the buffer (R266). -/
  die : Nat := 0
deriving DecidableEq, Repr

/-- A parity stripe (R267): the data page locations and whether the parity page is programmed. -/
structure Stripe where
  id : Nat
  parityStack : Nat := 0
  /-- Data pages. -/
  members : List Nat := []
  /-- Parity page + 1 once programmed. -/
  parity : Nat := 0
  /-- No further data page joins it. -/
  closed : Bool := false
deriving DecidableEq, Repr

/-- A held map epoch pin (R55, R272): scan, namespace, journal sequence at the pin. -/
structure Pin where
  scan : Nat
  nsid : Nat
  seq : Nat
deriving DecidableEq, Repr

/-- A durable journal record (R273): its sequence number and the metadata pages that hold its two copies. -/
structure Durable where
  seq : Nat
  record : JRec
  pages : List Nat := []
deriving DecidableEq, Repr

/-- An IU of a write part that a program unit holds and whose read-back is still to come (R262): page and stripe. -/
structure Programmed where
  part : Nat
  iu : Nat
  ppa : Nat
  stripe : Nat
deriving DecidableEq, Repr

/-- A relocation of an IU by garbage collection or refresh (R274, R277): its copy awaits read-back. -/
structure Reloc where
  key : Nat
  old : Nat
  new : Nat
deriving DecidableEq, Repr

/-- Health and repair of a seam stack (R60, R268, R289, R436). -/
structure Stack where
  dieRetired : List Nat := []
  /-- 0 ONLINE, 1 REBUILDING, 2 RETIRED. -/
  st : Nat := 0
  rebuilding : Bool := false
  reads : DWord := 0
  programs : DWord := 0
  erases : DWord := 0
  corrected : DWord := 0
  escalated : DWord := 0
  sieveLastError : Nat := 0
  malformedSeen : Bool := false
  sievePages : DWord := 0
  sieveTerms : DWord := 0
  sieveOut : DWord := 0
  /-- Key registers in use, by scan (R406). -/
  keys : List Nat := []
  /-- Round robin: the scan served last (R47). -/
  lastScan : Nat := 0
deriving DecidableEq, Repr

/-- The flash translation layer (R256-R289). -/
structure Flash where
  /-- Map: IU key (nsid × 2^40 + iu) to physical page + 1; unlisted is unmapped (R270). -/
  map : Table Nat := []
  /-- Contents of programmed physical pages. -/
  media : Table Mem := []
  blocks : Table Blk := []
  seam : Table Stack := []
  /-- Blocks open for programming on each stack, one of every plane of a die, as pSLC and as QLC (R256); and the pages
  gathered for the next wordline of the QLC ones. -/
  openPslc : Table (List Nat) := []
  openQlc : Table (List Nat) := []
  fillQlc : Table Nat := []
  /-- Next page of the metadata region and of the checkpoint region of each stack, counted through their blocks. -/
  metaNext : Table Nat := []
  ckptNext : Table Nat := []
  /-- Pages of the checkpoint region that hold data. -/
  ckptPages : List Nat := []
  programmed : List Programmed := []
  parts : List Part := []
  nextPart : Nat := 0
  nextAccept : Nat := 0
  stripes : List Stripe := []
  nextStripe : Nat := 0
  /-- Journal: durable records, newest first. -/
  journal : List Durable := []
  /-- Journal pages since the last MAP_CKPT record (R273). -/
  journalPages : Nat := 0
  /-- Groups of records that lie in one journal page, oldest first, with the write part they end. -/
  queued : List (Option Nat × List JRec) := []
  jseq : Nat := 0
  /-- The map that the last MAP_CKPT checkpointed, and the sequence number that it covers. -/
  ckptMap : Table Nat := []
  ckptSeq : Nat := 0
  pins : List Pin := []
  pinWait : List Nat := []
  /-- Former map values kept for pinned scans: (scan, IU key) to page + 1 (R272). -/
  pinDelta : List (Nat × Nat × Nat) := []
  unreadable : List (Nat × Nat) := []
  relocs : List Reloc := []
  hostIu : DWord := 0
  mediaIu : DWord := 0
  hmbErr : DWord := 0
  /-- Map segments (512 entries of 8 bytes) in the map cache, the one used last first, and in the Host Memory Buffer
  (R270, R271). -/
  mapCache : List Nat := []
  hmbSegs : List Nat := []
  /-- Checks of Host Memory Buffer segments and read-backs whose outcome was drawn (model's own counters,
  notes/assumptions/112.md). -/
  hmbDraws : Nat := 0
  readBackDraws : Nat := 0
  readOnly : Bool := false
  throttling : Bool := false
  /-- Space in IUs that garbage collection has reclaimed while writes are throttled and no write has taken (R275). -/
  credit : Nat := 0
  mounted : Bool := false
  /-- Early-warning events, newest first: code, stack, die, journal sequence (R283). -/
  events : List (Nat × Nat × Nat × Nat) := []
  sparePct : Nat := 0
  freePct : Nat := 0
  mediaErrors : Nat := 0
  /-- A logical block has been marked unreadable (R284). -/
  everMarked : Bool := false
  grownBad : Nat := 0
  /-- Page reads of host commands that have been counted and not completed (R280). -/
  reading : List Nat := []
  /-- Full patrol pass requested at mount (R282); pages read by the patrol in this pass. -/
  patrolFull : Bool := false
  patrolRead : List Nat := []
  /-- Time at which the patrol pass began (R281). -/
  patrolStart : Nat := 0
  /-- Percentage Used when it was last looked at (event 0x02). -/
  usedPct : Nat := 0
  /-- Free values drawn for reads of unprogrammed direct media (model's own counter,
  notes/assumptions/5.md). -/
  directDraws : Nat := 0
deriving DecidableEq, Repr

/-! ## Scans -/

/-- One page of a scan still to be processed, or being so when the scan stopped: first LBA and stack. -/
structure ScanPage where
  lba : Nat
  stack : Nat
deriving DecidableEq, Repr

/-- A scan (R46-R58). -/
structure Scan where
  id : Nat
  op : Nat
  fn : Nat
  prog : Nat
  policy : Nat := 0
  destTensor : Bool := false
  nsid : Nat := 0
  startLba : Nat := 0
  lbaCount : Nat := 0
  schema : Nat := 0
  projMask : Nat := 0
  payloadMode : Nat := 0
  payloadOffset : Nat := 0
  payloadLength : Nat := 0
  recordLimit : Nat := 0
  outputAddr : Nat := 0
  outputSize : Nat := 0
  pinned : Bool := false
  pages : List ScanPage := []
  /-- Pages of the range with a logical block marked unreadable at the pin (R55, R278). -/
  marked : List Nat := []
  /-- Output buffer by offset, and the bytes of records in it after the 64 of the summary. -/
  out : Mem := []
  outBytes : Nat := 0
  pagesRead : Nat := 0
  examined : Nat := 0
  passed : Nat := 0
  returned : Nat := 0
  empty : Nat := 0
  skipped : Nat := 0
  firstMalformed : Option Nat := none
  /-- Ended early: flags of sum_flags bits 1-4 and the status. -/
  stopFlags : Nat := 0
  status : Status := .success
  stopped : Bool := false
deriving DecidableEq, Repr

/-! ## Fabric -/

/-- A peer port (R324-R329, R346). -/
structure Port where
  /-- Table 13.2 state code. -/
  st : Nat := 0
  activeLanes : Nat := 0
  retiredLanes : Nat := 0
  farIdent : Nat := 0
  farPort : Nat := 0
  farEpoch : Nat := 0
  disable : Bool := false
  fec : List DWord := [0, 0, 0, 0]
  uncorr : DWord := 0
  replays : DWord := 0
  retrains : DWord := 0
  flitsTx : DWord := 0
  flitsRx : DWord := 0
  /-- Failed equalisation attempts in a row per lane (R326). -/
  eqFails : Table Nat := []
  /-- Management periods in a row with more than 65,536 symbols corrected, per lane (R326). -/
  symRuns : Table Nat := []
  /-- Codewords sent and not acknowledged, oldest first (R327). -/
  replayBuf : List Codeword := []
  nextSeq : Nat := 0
  expectSeq : Nat := 0
  /-- The next link control word carries nak; a flit has been accepted that none sent has acknowledged (R327). -/
  sendNak : Bool := false
  ackDue : Bool := false
  replayRun : Nat := 0
  /-- Credits held and slots freed per virtual channel (R329). -/
  credits : List Nat := [64, 64, 64, 64]
  freed : List Nat := [0, 0, 0, 0]
  /-- Flits that wait for a credit, for replay buffer space or for the port to be ACTIVE. -/
  txQueue : List Flit := []
  /-- Flits received for another module that wait for a route, each in a receive slot (R329, R332). -/
  received : List Flit := []
  /-- The alternate of routes through this port is in use (R332). -/
  switched : Bool := false
  /-- The far end has been identified in EXCHANGE since the last DETECT. -/
  exchanged : Bool := false
deriving DecidableEq, Repr

/-- A fabric event (Table 13.6). -/
structure FabEvent where
  base : Nat
  originator : Nat
  kind : Nat
  subject : Nat
deriving DecidableEq, Repr

/-- A message in the retransmit store (R337). -/
structure Msg where
  dst : Nat
  seq : Nat
  addr : Nat
  payload : Buf
  kind : MsgKind := .write
  /-- Operation that waits for it, if a host command does. -/
  op : Option Nat := none
  /-- Face die whose half of the store holds it (R338). -/
  die : Nat := 0
  fn : Nat := 0
  /-- Program whose bench or haul engine wrote it (R345), and the operation number of its execute (R338, R339). -/
  prog : Option Nat := none
  exec : Option Nat := none
  sinceMs : Nat := 0
  /-- A frame found uncorrectable as it was read from the reserve (R359). -/
  poisoned : Bool := false
deriving DecidableEq, Repr

/-- A forwarded write received, in its place of the sequence, that waits to take effect (R342). -/
structure HeldWrite where
  src : Nat
  seq : Nat
  addr : Nat
  payload : Buf
  signal : Bool
  /-- It arrived while a cut held the writes to its set (R350). -/
  late : Bool := false
deriving DecidableEq, Repr

/-- The fabric of a module (R320-R346). -/
structure Fabric where
  /-- Configuration in effect. -/
  configured : Bool := false
  position : Nat := 0
  spare : Bool := false
  spareIndex : Nat := 0
  board : Nat := 0
  sizeX : Nat := 2
  sizeY : Nat := 2
  sizeZ : Nat := 2
  routeTimeout : Nat := 100
  /-- Coordinates assumed by this spare. -/
  assumedHere : Option Nat := none
  epoch : Nat := 0
  routeSel : Nat := 0
  ports : Table Port := []
  /-- Fabric state record: the links down, by module and port of the end that names each; (coordinates, spare) assumed
  (R334). -/
  down : List (Nat × Nat) := []
  assumed : List (Nat × Nat) := []
  /-- Events held for the next epoch, and whether the 2 ms wait runs. -/
  heldEvents : List FabEvent := []
  waiting : Bool := false
  /-- A far end's epoch and record copied, to be entered once the port is ACTIVE (R335). -/
  pendingEpoch : Option (Nat × List (Nat × Nat) × List (Nat × Nat)) := none
  sendSeq : Table Nat := []
  expectSeq : Table Nat := []
  store : List Msg := []
  /-- Retransmit interval in µs per destination (R337). -/
  interval : Table Nat := []
  /-- The codewords that left the module, newest first. -/
  sent : List Codeword := []
  /-- Flits that have arrived for this module and have not been dealt with. -/
  arrived : List Flit := []
  /-- Flits of this module that wait for a route (R332). -/
  stranded : List Flit := []
  /-- HD_FAB_ID and HD_FAB_EPOCH have been set since the last module reset (R346). -/
  shown : Bool := true
  /-- Forwarded writes that wait to take effect, oldest first. -/
  heldWrites : List HeldWrite := []
  /-- Destinations that the module must RESYNC after a module reset (R338). -/
  resyncDue : List Nat := []
  /-- After a cold reset every coordinate of the live graph is due a RESYNC naming 0 (R389). -/
  coldResync : Bool := true
  e2eRetx : DWord := 0
  dupDrop : DWord := 0
  redraws : DWord := 0
  sigDrop : DWord := 0
  /-- Routes found unavailable after route_timeout (R345). -/
  unavailable : List Nat := []
deriving DecidableEq, Repr

/-! ## Checkpoints -/

/-- A running stream of a cut (R356, R358, R360). -/
structure Stream where
  cut : Nat
  /-- Every tile of its send set, and those still to be taken: (die, slot, tile). -/
  tiles : List (Nat × Nat × Nat)
  todo : List (Nat × Nat × Nat)
  /-- Hoist die KCLK count at the cut. -/
  since : Nat := 0
  /-- Pages of the current tile programmed and read back (flash: four pages of 16 KiB). -/
  page : Nat := 0
  /-- Commit record or message sent. -/
  committing : Bool := false
  /-- Read-back failures of the current page (R360). -/
  fails : Nat := 0
deriving DecidableEq, Repr

/-- A history entry of log 0xC5 (Table 14.7). -/
structure CutRecord where
  number : Nat
  streams : Nat
  outcome : Nat := 0xFF
  time : Nat := 0
deriving DecidableEq, Repr

/-- Checkpoints and spare takeover (R347-R367). -/
structure Ckpt where
  attached : Bool := false
  fn : Nat := 0
  setEntries : List SetEntry := []
  autoCut : Bool := false
  flashEnable : Bool := false
  autoTakeover : Bool := false
  prior : Nat := 1200
  floor : Nat := 0
  /-- 0 none, 1 cutting (steps 1 and 2 of R350), 3 restoring, 4 taking over. -/
  phase : Nat := 0
  /-- What steps 1 and 2 hold: commands from operation number `holdFrom` on of these functions. -/
  holdFrom : Nat := 0
  holdFns : List Nat := []
  cutOp : Option Nat := none
  cutNumber : Nat := 0
  cutWantFlash : Bool := false
  lastCut : Nat := 0
  nextFull : Bool := true
  owed : List (Nat × Nat × Nat) := []
  buddy : Option Stream := none
  flash : Option Stream := none
  buddyCommitted : Nat := 0
  buddyPrevious : Nat := 0
  /-- The frames that the partner keeps for this module, as R357 has it write them. -/
  buddyFrames : List Frame := []
  flashCommitted : Nat := 0
  flashSlot : Nat := 0
  /-- Flash images by slot: cut number and frames, with the manifest recorded. -/
  flashCut0 : Nat := 0
  flashCut1 : Nat := 0
  flashFrames0 : List Frame := []
  flashFrames1 : List Frame := []
  /-- Manifests recorded with cuts: cut number and entries. -/
  manifests : List (Nat × List SetEntry) := []
  /-- Image held for the partner: frames, committed cut and the one before (R357). -/
  heldFrames : List Frame := []
  heldManifests : List (Nat × List SetEntry) := []
  /-- Messages of that image still to be sent to the spare that takes over (R364). -/
  serving : List Msg := []
  heldCommitted : Nat := 0
  heldPrevious : Nat := 0
  heldLost : Bool := false
  /-- Frames copied by a takeover for the coordinates assumed (R364). -/
  localFrames : List Frame := []
  localCuts : List Nat := []
  localManifests : List (Nat × List SetEntry) := []
  /-- Interruptions: KCLK counts of the last 17, newest first; costs of the last 4 commits in ms. -/
  interruptions : List Nat := []
  costs : List Nat := []
  lastCutAt : Nat := 0
  lastFlashAt : Option Nat := none
  dueRaised : Bool := false
  /-- The shadow space of both dies: (die, slot, tile), in the order in which they were shadowed (R353, R355). -/
  shadow : List (Nat × Nat × Nat) := []
  shadowPeak : Nat := 0
  shadowRaised : Bool := false
  stallMax : Nat := 0
  stallTotal : Nat := 0
  regionWritten : Nat := 0
  abandoned : Nat := 0
  lastAbandon : Nat := 0
  takeoverResult : Nat := 0
  takeoverCoord : Option Nat := none
  takeoverOp : Option Nat := none
  history : List CutRecord := []
deriving DecidableEq, Repr

/-! ## Security -/

/-- Life-cycle states (Table 16.7). -/
inductive LifeCycle where
  | blank | provisioned | deployed | debug | decommissioned
deriving DecidableEq, Repr

/-- A firmware bank as the boot ROM sees it (R394, R395): the 8 KiB header region, its body, and the
commit record. -/
structure FwBank where
  header : Mem := []
  body : Buf := Buf.none
  commit : Mem := []
deriving DecidableEq, Repr

/-- An SPDM session (R400): its PF port, whether the requester authenticated to the owner root. -/
structure Session where
  id : Nat
  port : Nat
  owner : Bool
  /-- Hoist die KCLK count of the last heartbeat. -/
  beat : Nat
deriving DecidableEq, Repr

/-- The security engine, its fuses and the parameter sectors of the NOR store (R392-R413). -/
structure Security where
  /-- Life-cycle entries blown, as codes, oldest first (lc_record). -/
  lcRecord : List Nat := []
  decommissioned : Bool := false
  svn : Nat := 0
  slotRevoked : Nat := 0
  /-- Seed drawn by Provision Begin, held in the engine (draw number), and the seed wrapped in
  sectors 0-1: (draw number, life-cycle entry index it was wrapped under). -/
  seedHeld : Option Nat := none
  seedCopies : List (Nat × Nat) := []
  chain0 : Buf := Buf.none
  chain1 : Buf := Buf.none
  programDigest : Table (List Byte) := []
  signRequired : Bool := false
  nonce : Option Nat := none
  /-- Completion record of sector 24: the life-cycle code last completed. -/
  completionRecord : Nat := 0
  bank0 : FwBank := {}
  bank1 : FwBank := {}
  bootBank : Nat := 0
  bootSlot : Nat := 0
  /-- True once a bank has verified and handed over; false while the ROM waits for an image. -/
  booted : Bool := false
  measurement10 : List Byte := List.replicate 64 0
  sessions : List Session := []
  nextSession : Nat := 1
  spdmReplies : List Reply := []
  /-- Draws made from the generator (model's own counter, notes/assumptions/5.md). -/
  draws : Nat := 0
  nextKey : Nat := 1
  /-- A life-cycle change between its fuse and its cold reset (R410). -/
  transition : Option Nat := none
deriving DecidableEq, Repr

/-! ## Management core -/

/-- A Recovery Journal entry (Table 15.8). -/
structure JEntry where
  seq : Nat := 0
  kclk : DWord := 0
  stampDie : Nat := 2
  kind : Nat := 0
  scope : Nat := 0
  flags : Nat := 0
  memory : Nat := 0
  region : Nat := 0xFF
  bench : Nat := 0xFF
  detail : Nat := 0
  address : DWord := 0
  ended : Nat := 0
  lost : Nat := 0
  fallen : Nat := 0
  unloaded : Nat := 0
  duration : Nat := 0
  count : Nat := 0
deriving DecidableEq, Repr

/-- A Repair and Retirement entry (Table 18.8). -/
structure RepairEntry where
  seq : Nat := 0
  uptime : Nat := 0
  kind : Nat := 0
  cause : Nat := 0
  item : Nat := 0
  detail : Nat := 0
deriving DecidableEq, Repr

/-- A snapshot of an assay window (Table 18.3). -/
structure Snapshot where
  monitor : Nat := 0
  source : Nat := 0
  inst : Nat := 0
  saturated : Bool := false
  changed : Bool := false
  windowTicks : Nat := 0
  windowStart : Nat := 0
  count : Nat := 0
  min : Int := 0x7FFFFFFF
  max : Int := -0x80000000
  sum : Int := 0
  bins : List Nat := []
deriving DecidableEq, Repr

/-- An assay monitor (R430-R435). -/
structure Monitor where
  /-- Configuration as written and as in effect. -/
  cfg0 : DWord := 0x000003E800000000#64
  cfg1 : DWord := 0x0000000100000000#64
  live0 : DWord := 0x000003E800000000#64
  live1 : DWord := 0x0000000100000000#64
  pending : Bool := false
  /-- Capturing: an enabled monitor starts at a window boundary (R433). -/
  capturing : Bool := false
  /-- Tick at which the open window starts, or at which an enabled monitor begins to capture. -/
  start : Nat := 0
  changed : Bool := false
  windows : Word := 0
  count : Nat := 0
  min : Int := 0x7FFFFFFF
  max : Int := -0x80000000
  sum : Int := 0
  bins : List Nat := List.replicate 32 0
  saturated : Bool := false
  /-- Closed windows, newest first, at most 4. -/
  ring : List Snapshot := []
deriving DecidableEq, Repr

/-- One filtered sideband input (R439, R440). -/
structure Sideband where
  level : Bool := false
  masked : Bool := false
  stuck : Bool := false
  /-- Event 0x51 waits for a ready controller (Table 18.6, input 3). -/
  owed : Bool := false
deriving DecidableEq, Repr

/-- A firmware commit in progress (R444). -/
structure FwWork where
  op : Nat := 0
  fn : Nat := 0
  bank : Nat := 0
  /-- 2 erasing, 3 programming, 4 verifying (MG_FW_STAT). -/
  stage : Nat := 2
  sectors : Nat := 0
  needed : Nat := 0
  /-- The image as it was staged when the commit began. -/
  image : Buf := Buf.none
deriving DecidableEq, Repr

/-- What die trials and corrections have named of one core die (R373, R374). -/
structure DieNames where
  /-- Codewords of this management period, by address / 256. -/
  words : List Nat := []
  /-- Rows over any time, by address / 8,192. -/
  rows : List Nat := []
deriving DecidableEq, Repr

/-- The management core (R428-R452). -/
structure Mgmt where
  halted : Bool := false
  kickAge : Nat := 0
  monitors : Table Monitor := []
  /-- Recovery Journal: newest first, at most 256, and entries made since the cold reset. -/
  journal : List JEntry := []
  journalTotal : Nat := 0
  coldCause : Nat := 0x01
  /-- Repair and Retirement log: newest first, at most 1,024, and entries since manufacture. -/
  repairs : List RepairEntry := []
  repairTotal : Nat := 0
  /-- Up-time in management periods, and the value last written to the NOR store (R449). -/
  uptime : Nat := 0
  uptimeSaved : Nat := 0
  sideband : Table Sideband := []
  attnPresses : Nat := 0
  attnBlink : Bool := false
  locate : Nat := 0
  /-- Status of each entry of log 0xC3 as last read (Table 18.5). -/
  identities : Table Nat := []
  /-- DRAM rows repaired, by stack (R377). -/
  dramRepairs : Table Nat := []
  /-- Power stages unreadable: host cap treated as 250 W until the next cold reset (R438). -/
  stageCap : Bool := false
  stageSilent : Table Nat := []
  plateAge : Nat := 0
  /-- Identity reads that are due, by entry of log 0xC3 (R436). -/
  identityDue : List Nat := []
  fwStaged : Buf := Buf.none
  fwWork : Option FwWork := none
  fwResult : Nat := 0
  /-- NOR erase journal: sectors with an intent word and no completion word (R443). -/
  norIntent : List Nat := []
  miReplies : List Reply := []
  vpd : Mem := []
  miConfig : Table Word := []
  /-- NOR device records: saved settings (R393). -/
  norDual : Bool := false
  norFabric : Option (Word × Word) := none
  norReserve : Nat := 48
  norEarlyWarning : Word := 0x0A1402FF#32
  norPatrol : Nat := 7
  norEncrypt : Bool := true
  norCap0 : Nat := 650
  norCap1 : Nat := 650
  norPs : Table Nat := []
  /-- Retirement counters (R449): 65,536 × kind of Table 18.8 + item, to the up-times of its errors. -/
  errorCounts : Table (List Nat) := []
  /-- Core die in erasure mode per DRAM stack, and second die marked (R373, R374). -/
  erasure : Table Nat := []
  secondDie : Table Nat := []
  /-- Counts towards the criteria of R373, by 16 × stack + core die. -/
  dieNames : Table DieNames := []
  /-- Scrub registers (Table 15.3). -/
  scrubTarget : Nat := 0
  scrubSelect : Nat := 0xF
  scrubFast : Bool := false
  /-- Target and selection of the triggered pass that runs. -/
  scrubPass : Nat × Nat := (0, 0xF)
  scrubBusy : Bool := false
  scrubDone : Bool := false
  scrubAborted : Bool := false
  scrubRejected : Bool := false
  dramHours : Nat := 0x18
  sramMinutes : Nat := 0x3C
  scrubWords : DWord := 0
  scrubCorr : DWord := 0
  scrubTrial : DWord := 0
  scrubUncorr : DWord := 0
  scrubRemap : DWord := 0
  scrubTime : DWord := 0
  scrubSince : Nat := 0
  memCorr : DWord := 0
  memDcorr : DWord := 0
  memTrials : DWord := 0
  /-- Test registers (Table 15.4). -/
  eccArm : Bool := false
  eccMode : Nat := 0
  eccMemory : Nat := 0
  eccInjected : Bool := false
  /-- Free values drawn for words with more errors than the code promises to detect (model's own
  counter, notes/assumptions/12.md). -/
  eccDraws : Nat := 0
  eccDmask : DWord := 0
  eccCmask : Word := 0
  eccAddr : DWord := 0
  /-- Errors that words hold: memory code of Table 15.8 (1 T0, 2 T1, 7 DRAM), bench (0 elsewhere),
  address of the word or codeword, weights (SRAM: one count of bits; DRAM: symbols in error by core
  die). The memories themselves hold what the check bits protect. -/
  planted : List (Nat × Nat × Nat × List Nat) := []
  /-- Rows with corrected words: memory, place and row, with the scrub passes that corrected there (R377). -/
  rowHits : List (Nat × Nat × Nat × List Nat) := []
deriving DecidableEq, Repr

/-! ## Power -/

/-- Clocks, the governor and the power input (R414-R427, R457-R463). -/
structure Power where
  /-- Main switch closed. -/
  on : Bool := true
  standby : Bool := true
  /-- Switch opened by undervoltage or overvoltage, waiting for the input to recover. -/
  outOfRange : Bool := false
  capEff : Nat := 0x28A
  capSource : Nat := 0
  fastActive : Bool := false
  thermalActive : Bool := false
  throttled : Bool := false
  periodOverruns : Nat := 0
  inputW : Nat := 0
  input10mv : Nat := 0
  grantF : Nat := 0x12C
  grantD : Nat := 0x78
  grantS : Nat := 0x60
  hottest : Nat := 0
  sensor : Nat := 0
  shutdown : Bool := false
  fastCount : DWord := 0
  throttleCount : DWord := 0
  /-- Limits the governor has set: DRAM in MB/s, seam stack in MB/s per stack. -/
  dLimit : Nat := 4799040
  sLimit : Nat := 20000
  /-- Controls of F, D and S were below their maximum in the last period (R423). -/
  fThrottled : Bool := false
  dThrottled : Bool := false
  sThrottled : Bool := false
  /-- Telemetry of the last pass, read by the next pass's governor (R428) and the monitors. -/
  temps : List Int := []
  inputDw : Nat := 0
  /-- Traffic in MB/s of DRAM stacks 0-3 and seam stacks 0-31. -/
  traffic : List Nat := []
  /-- Identity reads done since the cold reset: the host port may train (R436, R460). -/
  identityDone : Bool := false
  /-- Composite temperature source: °C above which is reported by SMART (R426). -/
  tempWarn : Bool := false
deriving DecidableEq, Repr

/-! ## Resets in progress -/

/-- A reset under way (R24, R382). -/
structure ResetRun where
  /-- 1 region, 2 face die, 3 module, 4 cold. -/
  scope : Nat
  idx : Nat
  entry : JEntry
  /-- Completions to post at step 7, with the KCLK counts at which their commands were submitted. -/
  posts : List (Completion × Nat) := []
  /-- Entries of kind 0x0B to post at step 7. -/
  lost : List JEntry := []
  /-- Entries of triggers that this reset absorbed (R24). -/
  absorbed : List JEntry := []
  /-- Functions whose commands it ended (Table 12.8). -/
  fns : List Nat := []
deriving DecidableEq, Repr

/-- The state of the module. -/
structure State where
  /-- Commands that wait, first in, first out. -/
  pending : List Instr := []
  mfg : Mfg := {}
  clk : Clock := {}
  host : HostPort := {}
  benches : Table Bench := []
  regions : Table Region := []
  ts : TensorSpace := {}
  flash : Flash := {}
  scans : List Scan := []
  fabric : Fabric := {}
  ckpt : Ckpt := {}
  sec : Security := {}
  mgmt : Mgmt := {}
  power : Power := {}
  resets : List ResetRun := []
deriving DecidableEq, Repr

/-- The module right after a power-up cold reset of a factory-new part, before the boot chain (R20, R459):
the cold reset still runs, and every identity read is due (R436). -/
def State.reset : State :=
  { mgmt := { identityDue := List.range 54 }
    resets := [{ scope := 4, idx := 0, entry := { kind := 0x10, scope := 4, detail := 0x01 } }] }

end Sys2Proof.Machine
end

