-- ==== Sys2Proof/Machine/Arbiter.lean ====
section
/-! DEFINITION. The arbitration of the submission queues of a controller and of the controllers (R296): which queue
the next command is fetched from. The queue of waiting commands (State.pending) lists commands in the order in which
they are fetched (notes/assumptions/117.md). -/

namespace Sys2Proof.Machine

/-- The first of the ascending numbers `l` above `last`, and after the end the first of all. -/
def roundRobin (last : Nat) (l : List Nat) : Option Nat :=
  match l.find? fun q => decide (last < q) with
  | some q => some q
  | none => l.head?

/-- Queues of a controller that hold commands to fetch. -/
def Controller.work (k : Controller) : List Nat := (k.sqs.filter fun e => e.2.head != e.2.tail).map (·.1)

/-- True when CC.AMS selects weighted round robin with an urgent class. -/
def Controller.weighted (k : Controller) : Bool := bitsOf k.cc.toNat 13 11 == 1

/-- Class of a queue: 0 the admin queue, 1 urgent, 2 to 4 the weighted classes high, medium and low. Under plain round
robin every I/O queue is of one class. -/
def Controller.queueClass (k : Controller) (q : Nat) : Nat :=
  if q = 0 then 0 else if k.weighted then 1 + (tget {} k.sqs q).prio % 4 else 1

/-- The weight of a weighted class in commands. -/
def Arbiter.weight (a : Arbiter) (c : Nat) : Nat := 1 + (if c = 2 then a.high else if c = 3 then a.medium else a.low)

/-- The class that the next burst is taken from: the admin queue, then the urgent class, then the weighted classes that
have credits left; with none left in a class that has work, every class begins again with its weight. -/
def Controller.nextClass (k : Controller) : Option Nat :=
  let has := fun c => k.work.any fun q => k.queueClass q == c
  match [0, 1].find? has with
  | some c => some c
  | none =>
    match [2, 3, 4].find? fun c => has c && decide (0 < tget (k.arb.weight c) k.arb.credits c) with
    | some c => some c
    | none => [2, 3, 4].find? has

/-- The queue that the next burst is taken from: round robin within its class. -/
def Controller.nextSq (k : Controller) : Option Nat :=
  match k.nextClass with
  | none => none
  | some c => roundRobin (tget 64 k.arb.last c) (k.work.filter fun q => k.queueClass q == c)

/-- True while the burst under way goes on: commands are left of it and its queue still has work. -/
def Controller.inBurst (k : Controller) : Bool := k.arb.left != some 0 && k.work.contains k.arb.cur

/-- A new burst from queue `q`: 2^AB commands, or no limit for 7h. -/
def Controller.burstOf (k : Controller) (q : Nat) : Arbiter :=
  let c := k.queueClass q
  let a := k.arb
  { a with
    cur := q, left := if a.burst = 7 then none else some (2 ^ a.burst), last := tset a.last c q
    credits := if c < 2 ∨ 0 < tget (a.weight c) a.credits c then a.credits
      else [(2, a.weight 2), (3, a.weight 3), (4, a.weight 4)] }

/-- The arbitration after one command of queue `q` has been fetched in its turn. -/
def Controller.arbitrated (k : Controller) (q : Nat) : Arbiter :=
  let a := if k.inBurst = true ∧ k.arb.cur = q then k.arb else k.burstOf q
  let c := k.queueClass q
  { a with
    left := a.left.map (· - 1)
    credits := if c < 2 then a.credits else tset a.credits c (tget (a.weight c) a.credits c - 1) }

/-- The function and the queue that the next command is fetched from: one burst of each controller that has work, in
ascending function number. -/
def State.nextFetch (s : State) : Option (Nat × Nat) :=
  let k := tget {} s.host.controllers s.host.turn
  if k.rdy = true ∧ k.inBurst = true then some (s.host.turn, k.arb.cur)
  else
    let busy := (s.host.controllers.filter fun e => e.2.rdy && !e.2.work.isEmpty).map (·.1)
    match roundRobin s.host.turn busy with
    | none => none
    | some f => ((tget {} s.host.controllers f).nextSq).map fun q => (f, q)

end Sys2Proof.Machine
end

