-- ==== Sys2Proof/Config.lean ====
section
/-! DEFINITION. What an implementation fixes and the free values: opaque constants without a body, so
that a statement about them holds whatever they are. Each has its entry in notes/assumptions. -/

namespace Sys2Proof.Config

/-- Whether EXP gives the upper of the two binary32 neighbours of the exact value (Table 3.6: within
1 ulp). Free value, notes/assumptions/6.md. -/
opaque expUp : Word → Bool

/-- Whether the maximum (true) or the minimum of FP32 lanes of which some but not all are NaNs is the NaN and
not the number: the spec states neither. A function of the lanes alone, for R83 says that the result does not vary.
Free value, notes/assumptions/6.md. -/
opaque nanWins : Bool → List Word → Bool

/-- Whether the maximum (true) or the minimum of FP32 lanes is -0.0, where zeros of both signs are the extreme
lanes: the spec states neither. A function of the lanes alone (R83). Free value, notes/assumptions/6.md. -/
opaque negZero : Bool → List Word → Bool

/-- Which lanes a reduction combines next, by combination number: the order in which RSUM adds its lanes
is fixed within one kernel but not stated (R83, Table 5.7). Free value, notes/assumptions/6.md. -/
opaque lanePick : Nat → Nat

/-- A byte that the spec leaves undefined (overlapping COPY ranges, the destination of a stopped burst,
outputs of an ended scan), by draw number and address. Free value, notes/assumptions/5.md. -/
opaque undefByte : Nat → Nat → Byte

/-- Whether the target of a burst across the die bridge answers with an error (R205, code 0x07), by region and draw
number: the spec does not say when one does. Free value, notes/assumptions/109.md. -/
opaque bridgeError : Nat → Nat → Bool

/-- The result of the read-back of a program whose command row carries none, by draw: none when a codeword does not
decode in hard decision, otherwise the most bits corrected in a codeword (R261). Free value,
notes/assumptions/112.md. -/
opaque readBack : Nat → Option Nat

/-- Whether a map segment in the Host Memory Buffer, which is host memory, still passes its CRC-32C (R271), by draw. Free
value, notes/assumptions/112.md. -/
opaque hmbCrc : Nat → Bool

/-- Whether the module sets Relaxed Ordering on a write of command data, which it may (R292), by entry number. Free value,
notes/assumptions/116.md. -/
opaque relaxedData : Nat → Bool

/-- The outcome of decoding a word with more errors than the code promises to detect (R381): 0 detected
as uncorrectable, 1 corrected to other data, 2 taken as valid. Free value, notes/assumptions/12.md. -/
opaque beyondCode : Nat → Nat → Nat

/-- Which of its die's two DRAM stacks holds the codeword at a tensor-space address: the tier manager
chooses the frame (R470). Free value, notes/assumptions/12.md. -/
opaque frameStack : Nat → Bool

/-- The DRAM frame of the buddy reserve that holds the frame of a tile's address and cut, counted over the frames of
both face dies (R357 and R470 place none). Free value, notes/assumptions/119.md. -/
opaque reserveFrame : Nat → Nat → Nat

/-- Which face die's DRAM holds the buffer of a write part, by part number (R262: the control-core area
of DRAM). Free value, notes/assumptions/11.md. -/
opaque bufferDie : Nat → Bool

/-- SHAKE256 with an output of the given number of bytes. Uninterpreted, notes/assumptions/9.md. -/
opaque shake256 : Nat → List Byte → List Byte

/-- ML-DSA-65 verification of a signature over a message under a public key. -/
opaque mlDsaVerify : List Byte → List Byte → List Byte → Bool

/-- ML-DSA-65 signature by the identity key of the given seed draw over a message. -/
opaque mlDsaSign : Nat → List Byte → List Byte

/-- vendor_key_digest of vendor key slots 0-2, fused at manufacture (Table 16.1). -/
opaque vendorKeyDigest : Nat → List Byte

/-- SHAKE256 digests of measurements 8 and 9: of the life-cycle state code, fused security version,
slot_revoked and running key slot, and of the signing policy with the digests of slots 0-3 (Table 16.5 does
not give the form of the input). Uninterpreted, notes/assumptions/9.md. -/
opaque stateDigest : List Nat → List Byte
opaque policyDigest : Bool → List (List Byte) → List Byte

/-- The bytes that an SPDM signature covers (1 CHALLENGE, 2 GET_MEASUREMENTS, 3 KEY_EXCHANGE), from the
parts named: the transcript's form is that of SPDM 1.4. -/
opaque transcript : Nat → List (List Byte) → List Byte

/-- The ML-DSA-65 public key of the identity key pair of the given seed draw (R398). -/
opaque identityKey : Nat → List Byte

/-- The public key of the leaf certificate of a chain, if the chain is well formed (R398, R399). -/
opaque chainLeafKey : List Byte → Option (List Byte)

/-- The PKCS#10 request for an identity key and a serial (R398). -/
opaque pkcs10 : Nat → Nat → List Byte

/-- The bytes of the given draw of the true random number generator. -/
opaque random : Nat → List Byte

/-- ML-KEM-768 encapsulation towards a requester's key, by draw (R400). -/
opaque mlKemEncap : Nat → List Byte → List Byte

/-- Measurement values 1 to 6, which the boot chain takes of the running components (R401): index,
and digest of the running header. -/
opaque componentDigest : Nat → List Byte → List Byte

/-- Raw codeword bits of a page (18,592 bytes, 4 codewords of 4,648) that Direct Read returns on
request, from the page's data (R288, R310): the LDPC parity is the die vendor's. -/
opaque rawCodewords : List Byte → List Byte

/-- Contents of the NVMe-MI data structures, health polls and configurations that the spec leaves to NVMe-MI
1.2, by draw, request and operand. Free value, notes/assumptions/24.md. -/
opaque miStructure : Nat → Nat → Nat → List Byte

/-- Rows of a DRAM stack that post-package repair can replace (R377, Table 15.2 gives no number).
Implementation constant, notes/assumptions/12.md. -/
opaque dramSpareRows : Nat

/-- The kind in the Recovery Journal of a module reset that Table 15.9 gives none for: 0 thermal shutdown
(R426), 1 Life Cycle Transition (R410). Free value, notes/assumptions/22.md. -/
opaque resetKind : Nat → Nat

/-- Which of the resets that run at the same time ends next, by the Recovery Journal's entries so far (R24 gives no
order). Free value, notes/assumptions/105.md. -/
opaque endsNext : Nat → Nat

/-- Bytes of the standard log pages whose contents the spec leaves to NVMe (Error Information, Changed
Namespace List, Commands Supported and Effects, the rest of SMART and Firmware Slot Information), by draw, log
identifier and offset. Free value, notes/assumptions/24.md. -/
opaque standardLog : Nat → Nat → Nat → Byte

/-- Bytes of an entry of log 0xC3 that the attached part reports or manufacture wrote (vendor, model, serial,
revision, rating and the two digests), by entry, status read and offset. Free value, notes/assumptions/24.md. -/
opaque identityByte : Nat → Nat → Nat → Byte

/-- 64-bit words of the standard NVMe controller registers that the spec does not give, by offset.
notes/assumptions/25.md. -/
opaque nvmeRegister : Nat → Nat

/-- Feature values that the spec leaves to NVMe, by draw, feature and select. Free value,
notes/assumptions/24.md. -/
opaque standardFeature : Nat → Nat → Nat → Word

/-- Identify data that the spec leaves to NVMe, by draw and CNS. Free value, notes/assumptions/24.md. -/
opaque standardIdentify : Nat → Nat → Nat → Byte

/-- Contents of tensor space whose only copy lay in T3 when a Sanitize replaced the T3 keys, by draw and address: the
spec states none. Free value, notes/assumptions/26.md. -/
opaque erasedByte : Nat → Nat → Byte

/-- The abandon reason (log 0xC5) of a flash stream that a Sanitize ends, which Table 14.4a does not name. Free value,
notes/assumptions/26.md. -/
opaque eraseAbandon : Nat

/-- Asynchronous Event Requests that a controller keeps outstanding beyond the first (AERL of NVMe, which the
spec does not give). Implementation constant (notes/assumptions/24.md). -/
opaque aerLimit : Nat

end Sys2Proof.Config
end

