-- ==== Sys2Proof/Machine/Float.lean ====
section
/-! DEFINITION. FP32 (IEEE 754 binary32) arithmetic of the vector unit and the drain, computed exactly
and rounded once (R77, R82): round to nearest with ties to even, subnormals kept, NaN results quiet. -/

namespace Sys2Proof.Fp

/-- The quiet NaN of every NaN result (R82). -/
def qnan : Word := 0x7FC00000

/-- Positive infinity. -/
def posInf : Word := 0x7F800000

/-- 1.0. -/
def one : Word := 0x3F800000

/-- The sign bit. -/
def neg (x : Word) : Bool := x.msb

/-- The magnitude bits. -/
def magBits (x : Word) : Nat := x.toNat % 0x80000000

/-- True for a NaN. -/
def isNan (x : Word) : Bool := decide (0x7F800000 < magBits x)

/-- True for an infinity. -/
def isInf (x : Word) : Bool := decide (magBits x = 0x7F800000)

/-- True for a finite value. -/
def isFinite (x : Word) : Bool := decide (magBits x < 0x7F800000)

/-- True for a zero of either sign. -/
def isZero (x : Word) : Bool := decide (magBits x = 0)

/-- The significand m of a finite value m × 2^e. -/
def sigOf (x : Word) : Nat :=
  if magBits x / 0x800000 = 0 then magBits x else magBits x % 0x800000 + 0x800000

/-- The exponent e of a finite value m × 2^e. -/
def expOf (x : Word) : Int :=
  if magBits x / 0x800000 = 0 then -149 else ((magBits x / 0x800000 : Nat) : Int) - 150

/-- The signed significand of a finite value. -/
def sgnSig (x : Word) : Int := if neg x then -(sigOf x : Int) else (sigOf x : Int)

/-- A bit pattern from its sign and its magnitude bits. -/
def ofMag (s : Bool) (b : Nat) : Word := BitVec.ofNat 32 (b + (if s then 0x80000000 else 0))

/-- 2^i for i not below 0, 1 otherwise. -/
def pow2 (i : Int) : Nat := 2 ^ i.toNat

/-- The value ±(m + δ) × 2^e rounded to nearest, ties to even, where δ is 0, or lies strictly
between 0 and 1 when sticky holds (m then has at least 26 bits). -/
def roundTo (s : Bool) (m : Nat) (e : Int) (sticky : Bool) : Word :=
  if m = 0 then ofMag s 0
  else
    let q := Max.max ((Nat.log2 m : Int) + e - 23) (-149)
    if q ≤ e then
      let b := (q + 149).toNat * 0x800000 + m * pow2 (e - q)
      if 0x7F800000 ≤ b then ofMag s 0x7F800000 else ofMag s b
    else
      let d := pow2 (q - e)
      let keep := m / d
      let rem := m % d
      let up := decide (d < 2 * rem) || (decide (2 * rem = d) && (sticky || decide (keep % 2 = 1)))
      let b := (q + 149).toNat * 0x800000 + keep + b2n up
      if 0x7F800000 ≤ b then ofMag s 0x7F800000 else ofMag s b

/-- A result with the flags it raises (Table 3.7). -/
structure Out where
  bits : Word
  invalid : Bool
  overflow : Bool
deriving DecidableEq, Repr

/-- The flags of a result: fp_invalid for a NaN, fp_overflow for an infinity from finite operands
(Table 3.7). -/
def out (r : Word) (finiteIn : Bool) : Out :=
  { bits := r, invalid := isNan r, overflow := isInf r && finiteIn }

/-- The integer i × 2^e as an FP32 value, one rounding; a zero sum takes the sign s0. -/
def ofDyadic (i e : Int) (s0 : Bool) : Word :=
  if i = 0 then ofMag s0 0 else roundTo (decide (i < 0)) i.natAbs e false

/-- The fused a × b + c, rounded once. -/
def fmaBits (a b c : Word) : Word :=
  if isNan a || isNan b || isNan c then qnan
  else
    let sp := Bool.xor (neg a) (neg b)
    if isInf a || isInf b then
      if isZero a || isZero b then qnan
      else if isInf c && Bool.xor sp (neg c) then qnan
      else ofMag sp 0x7F800000
    else if isInf c then c
    else
      let ep := expOf a + expOf b
      let e := Min.min ep (expOf c)
      let i := sgnSig a * sgnSig b * (pow2 (ep - e) : Int) + sgnSig c * (pow2 (expOf c - e) : Int)
      ofDyadic i e (sp && neg c)

/-- a + b. -/
def addBits (a b : Word) : Word :=
  if isNan a || isNan b then qnan
  else if isInf a then (if isInf b && Bool.xor (neg a) (neg b) then qnan else a)
  else if isInf b then b
  else
    let e := Min.min (expOf a) (expOf b)
    ofDyadic (sgnSig a * (pow2 (expOf a - e) : Int) + sgnSig b * (pow2 (expOf b - e) : Int)) e
      (neg a && neg b)

/-- The value with its sign changed. -/
def negate (x : Word) : Word := x ^^^ 0x80000000

/-- a × b. -/
def mulBits (a b : Word) : Word :=
  if isNan a || isNan b then qnan
  else
    let s := Bool.xor (neg a) (neg b)
    if isInf a || isInf b then (if isZero a || isZero b then qnan else ofMag s 0x7F800000)
    else if isZero a || isZero b then ofMag s 0
    else roundTo s (sigOf a * sigOf b) (expOf a + expOf b) false

/-- a / b. -/
def divBits (a b : Word) : Word :=
  if isNan a || isNan b then qnan
  else
    let s := Bool.xor (neg a) (neg b)
    if isInf a then (if isInf b then qnan else ofMag s 0x7F800000)
    else if isInf b then ofMag s 0
    else if isZero b then (if isZero a then qnan else ofMag s 0x7F800000)
    else if isZero a then ofMag s 0
    else
      let n := sigOf a * 2 ^ 60
      roundTo s (n / sigOf b) (expOf a - expOf b - 60) (decide (n % sigOf b ≠ 0))

/-- The integer square root found bit by bit from bit k downwards. -/
def isqrtFrom : Nat → Nat → Nat → Nat
  | 0, n, r => if (r + 1) * (r + 1) ≤ n then r + 1 else r
  | k + 1, n, r =>
    let t := r + 2 ^ (k + 1)
    isqrtFrom k n (if t * t ≤ n then t else r)

/-- The integer square root of a number below 2^256. -/
def isqrt (n : Nat) : Nat := isqrtFrom 127 n 0

/-- The square root, correctly rounded. -/
def sqrtBits (x : Word) : Word :=
  if isNan x then qnan
  else if isZero x then x
  else if neg x then qnan
  else if isInf x then x
  else
    let odd := expOf x % 2 ≠ 0
    let m := if odd then 2 * sigOf x else sigOf x
    let e := if odd then expOf x - 1 else expOf x
    let n := m * 2 ^ 60
    roundTo false (isqrt n) (e / 2 - 30) (decide (isqrt n * isqrt n ≠ n))

/-- The reciprocal square root, correctly rounded. -/
def rsqrtBits (x : Word) : Word :=
  if isNan x then qnan
  else if isZero x then ofMag (neg x) 0x7F800000
  else if neg x then qnan
  else if isInf x then ofMag false 0
  else
    let odd := expOf x % 2 ≠ 0
    let m := if odd then 2 * sigOf x else sigOf x
    let e := if odd then expOf x - 1 else expOf x
    let r := isqrt (2 ^ 120 / m)
    roundTo false r (-(e / 2) - 60) (decide (r * r * m ≠ 2 ^ 120))

/-- ln 2 × 2^200, rounded down. -/
def ln2 : Int := 1113844574712631719546256151097547306333272293549090750737802

/-- The Taylor sum of e^r in units of 2^-200, term by term from term n - fuel on. -/
def expSum : Nat → Nat → Int → Int → Int
  | 0, _, _, acc => acc
  | f + 1, n, r, acc =>
    -- Horner form: 1 + r / n × (what follows)
    expSum f (n - 1) r (2 ^ 200 + r * acc / (2 ^ 200 * (n : Int)))

/-- The greatest binary32 magnitude pattern whose value is at most e^x, for x = i × 2^-149 finite and
not zero: the exact value to more than 150 bits, cut off. -/
def expFloor (x : Word) : Nat :=
  let v : Int := (sgnSig x * (pow2 (expOf x + 149) : Int)) * 2 ^ 51   -- x in units of 2^-200
  let k := v / ln2
  let r := v - k * ln2
  let m := (expSum 60 60 r (2 ^ 200)).toNat                          -- e^r in units of 2^-200
  let q := Max.max ((Nat.log2 m : Int) + k - 200 - 23) (-149)
  let keep := if q ≤ k - 200 then m * pow2 (k - 200 - q) else m / pow2 (q - (k - 200))
  (q + 149).toNat * 0x800000 + keep

/-- The exponential within 1 ulp (Table 3.6): one of the two neighbours of the exact value. -/
def expBits (x : Word) : Word :=
  if isNan x then qnan
  else if isInf x then (if neg x then ofMag false 0 else x)
  else if isZero x then one
  else if 0x42D00000 ≤ magBits x then   -- |x| at least 104: e^x lies below 2^-149 or above every finite value
    (if neg x then ofMag false (b2n (Config.expUp x)) else posInf)
  else
    let b := expFloor x + b2n (Config.expUp x)
    if 0x7F800000 ≤ b then posInf else ofMag false b

/-- a < b; false when either is a NaN. -/
def lt (a b : Word) : Bool :=
  if isNan a || isNan b then false
  else if isZero a && isZero b then false
  else if neg a then (if neg b then decide (magBits b < magBits a) else true)
  else if neg b then false
  else decide (magBits a < magBits b)

/-- An FP32 value narrowed to BF16 and held widened: bits [31:16], ties away from zero (R77). -/
def bf16Away (x : Word) : Word :=
  if isNan x then qnan
  else if isInf x then x
  else ofMag (neg x) ((magBits x + 0x8000) / 0x10000 * 0x10000)

/-- round_away of a finite value: sign(v) × ⌊|v| + 0.5⌋ (R77). -/
def roundAway (x : Word) : Int :=
  let m := if 0 ≤ expOf x then sigOf x * pow2 (expOf x)
    else (2 * sigOf x + pow2 (-(expOf x))) / (2 * pow2 (-(expOf x)))
  if neg x then -(m : Int) else (m : Int)

/-- Float-to-integer conversion that saturates to lo … hi; a NaN gives 0 (Table 3.6). -/
def toIntSat (lo hi : Int) (x : Word) : Int :=
  if isNan x then 0
  else if isInf x then (if neg x then lo else hi)
  else clampInt lo hi (roundAway x)

/-- Whether that conversion clamped. -/
def satChanged (lo hi : Int) (x : Word) : Bool :=
  if isNan x then false
  else if isInf x then true
  else decide (clampInt lo hi (roundAway x) ≠ roundAway x)

/-- An integer as FP32, rounded to nearest with ties to even: fp32() of R78. -/
def ofInt (i : Int) : Word := ofDyadic i 0 false

/-- Addition with its flags. -/
def add (a b : Word) : Out := out (addBits a b) (isFinite a && isFinite b)
/-- Subtraction with its flags. -/
def sub (a b : Word) : Out := out (addBits a (negate b)) (isFinite a && isFinite b)
/-- Multiplication with its flags. -/
def mul (a b : Word) : Out := out (mulBits a b) (isFinite a && isFinite b)
/-- Fused multiply-add with its flags. -/
def fma (a b c : Word) : Out := out (fmaBits a b c) (isFinite a && isFinite b && isFinite c)
/-- Division with its flags. -/
def div (a b : Word) : Out := out (divBits a b) (isFinite a && isFinite b)
/-- Square root with its flags. -/
def sqrt (a : Word) : Out := out (sqrtBits a) (isFinite a)
/-- Reciprocal square root with its flags. -/
def rsqrt (a : Word) : Out := out (rsqrtBits a) (isFinite a)
/-- Exponential with its flags. -/
def exp (a : Word) : Out := out (expBits a) (isFinite a)

/-- The greater, or the smaller, of two lanes that are numbers. -/
def pick (wantMax : Bool) (a b : Word) : Word :=
  if lt a b then (if wantMax then b else a) else (if wantMax then a else b)

/-- Maximum or minimum of lanes: exact and the same in every order (R83). The free values decide what the spec does
not state, and by the lanes alone: whether a NaN lane or the numbers give the result, and the sign of a zero that
lanes of both signs hold. A NaN result is the quiet NaN (R82). -/
def extremum (wantMax : Bool) (l : List Word) : Word :=
  match l.filter fun x => !isNan x with
  | [] => qnan
  | a :: r =>
    if l.any isNan && Config.nanWins wantMax l then qnan
    else
      let m := r.foldl (pick wantMax) a
      if isZero m && (a :: r).contains 0 && (a :: r).contains (ofMag true 0) then
        ofMag (Config.negZero wantMax l) 0
      else m

end Sys2Proof.Fp
end

