-- ==== Sys2Proof/Machine/Ops.lean ====
section
/-! DEFINITION. The named operations that every family of commands is written with: reading and
changing one part of the state, completions and events, the Recovery Journal, the repair log, the assay
monitors, the life-cycle check and the frame of a host command. -/

namespace Sys2Proof.Machine

/-! ## Parts of the state -/

/-- The state with its host port changed by `f`. -/
def State.modHost (s : State) (f : HostPort → HostPort) : State := { s with host := f s.host }
/-- The state with its tensor space changed by `f`. -/
def State.modTs (s : State) (f : TensorSpace → TensorSpace) : State := { s with ts := f s.ts }
/-- The state with its flash layer changed by `f`. -/
def State.modFlash (s : State) (f : Flash → Flash) : State := { s with flash := f s.flash }
/-- The state with its fabric changed by `f`. -/
def State.modFabric (s : State) (f : Fabric → Fabric) : State := { s with fabric := f s.fabric }
/-- The state with its checkpoint logic changed by `f`. -/
def State.modCkpt (s : State) (f : Ckpt → Ckpt) : State := { s with ckpt := f s.ckpt }
/-- The state with its security engine changed by `f`. -/
def State.modSec (s : State) (f : Security → Security) : State := { s with sec := f s.sec }
/-- The state with its management core changed by `f`. -/
def State.modMgmt (s : State) (f : Mgmt → Mgmt) : State := { s with mgmt := f s.mgmt }
/-- The state with its power logic changed by `f`. -/
def State.modPower (s : State) (f : Power → Power) : State := { s with power := f s.power }
/-- The state with its clocks changed by `f`. -/
def State.modClk (s : State) (f : Clock → Clock) : State := { s with clk := f s.clk }
/-- The state with its scans changed by `f`. -/
def State.modScans (s : State) (f : List Scan → List Scan) : State := { s with scans := f s.scans }

/-- Global bench `b`. -/
def State.bench (s : State) (b : Nat) : Bench := tget {} s.benches b
/-- The state with global bench `b` changed by `f`. -/
def State.modBench (s : State) (b : Nat) (f : Bench → Bench) : State :=
  { s with benches := tmod {} s.benches b f }
/-- Global region `r`. -/
def State.region (s : State) (r : Nat) : Region := tget {} s.regions r
/-- The state with global region `r` changed by `f`. -/
def State.modRegion (s : State) (r : Nat) (f : Region → Region) : State :=
  { s with regions := tmod {} s.regions r f }
/-- The haul engine of region `r`. -/
def State.modHaul (s : State) (r : Nat) (f : Haul → Haul) : State :=
  s.modRegion r fun g => { g with haul := f g.haul }
/-- The tier manager of face die `d`. -/
def State.die (s : State) (d : Nat) : Die := tget {} s.ts.dies d
/-- The state with the tier manager of face die `d` changed by `f`. -/
def State.modDie (s : State) (d : Nat) (f : Die → Die) : State :=
  s.modTs fun t => { t with dies := tmod {} t.dies d f }
/-- The extent in slot `j` of face die `d`. -/
def State.extent (s : State) (d j : Nat) : Extent := tget {} (s.die d).slots j
/-- The state with the extent in slot `j` of face die `d` changed by `f`. -/
def State.modExtent (s : State) (d j : Nat) (f : Extent → Extent) : State :=
  s.modDie d fun x => { x with slots := tmod {} x.slots j f }
/-- The controller of function `f`. -/
def State.ctl (s : State) (fn : Nat) : Controller := tget {} s.host.controllers fn
/-- The state with the controller of function `fn` changed by `f`. -/
def State.modCtl (s : State) (fn : Nat) (f : Controller → Controller) : State :=
  s.modHost fun h => { h with controllers := tmod {} h.controllers fn f }
/-- Namespace `n`. -/
def State.ns (s : State) (n : Nat) : Ns := tget {} s.host.namespaces n
/-- The state with namespace `n` changed by `f`. -/
def State.modNs (s : State) (n : Nat) (f : Ns → Ns) : State :=
  s.modHost fun h => { h with namespaces := tmod {} h.namespaces n f }
/-- The program of key `k` = 16 × function + index. -/
def State.prog (s : State) (k : Nat) : Prog := tget {} s.host.programs k
/-- The state with the program of key `k` changed by `f`. -/
def State.modProg (s : State) (k : Nat) (f : Prog → Prog) : State :=
  s.modHost fun h => { h with programs := tmod {} h.programs k f }
/-- Peer port `p`. -/
def State.port (s : State) (p : Nat) : Port := tget {} s.fabric.ports p
/-- The state with peer port `p` changed by `f`. -/
def State.modPort (s : State) (p : Nat) (f : Port → Port) : State :=
  s.modFabric fun x => { x with ports := tmod {} x.ports p f }
/-- Seam stack `k`. -/
def State.stack (s : State) (k : Nat) : Stack := tget {} s.flash.seam k
/-- The state with seam stack `k` changed by `f`. -/
def State.modStack (s : State) (k : Nat) (f : Stack → Stack) : State :=
  s.modFlash fun x => { x with seam := tmod {} x.seam k f }
/-- Array `a` of bench `b`. -/
def State.arr (s : State) (b a : Nat) : Arr := tget {} (s.bench b).arrays a
/-- The state with array `a` of bench `b` changed by `f`. -/
def State.modArr (s : State) (b a : Nat) (f : Arr → Arr) : State :=
  s.modBench b fun x => { x with arrays := tmod {} x.arrays a f }
/-- The state with the sequencer of bench `b` changed by `f`. -/
def State.modSeq (s : State) (b : Nat) (f : Sequencer → Sequencer) : State :=
  s.modBench b fun x => { x with seq := f x.seq }
/-- Draw number `n` of source `k` of free values: benches 0 to 39, 61 scans that a reset ends, 62 direct media, 63 words
beyond their code, so that no two sources share a draw (notes/assumptions/5.md). -/
def drawOf (k n : Nat) : Nat := 64 * n + k

/-- The draw number of the next free value of bench `b`. -/
def State.benchDraws (s : State) (b : Nat) : Nat := drawOf b (s.bench b).draws
/-- `n` more free values drawn on bench `b`. -/
def State.drawn (s : State) (b n : Nat) : State := s.modBench b fun x => { x with draws := x.draws + n }
/-- The scan of identifier `i`, if it runs. -/
def State.scan (s : State) (i : Nat) : Option Scan := s.scans.find? fun x => x.id == i
/-- The state with the scan of identifier `i` changed by `f`. -/
def State.modScan (s : State) (i : Nat) (f : Scan → Scan) : State :=
  s.modScans fun l => l.map fun x => if x.id = i then f x else x

/-! ## Numbering (R5, R293) -/

/-- The global region of a global bench. -/
def regionOf (b : Nat) : Nat := b / 5
/-- The face die of a global region. -/
def dieOf (r : Nat) : Nat := r / 4
/-- The face die of a global bench. -/
def benchDie (b : Nat) : Nat := b / 20
/-- True when function number `fn` is a physical function. -/
def isPf (fn : Nat) : Bool := fn % 17 = 0
/-- The functions a PF stands for: itself and its 16 VFs. -/
def pfGroup (fn : Nat) : List Nat := (List.range 17).map fun v => fn / 17 * 17 + v
/-- Bytes of a function's BAR0 (Table 12.1). -/
def barSize (fn : Nat) : Nat := if isPf fn then 0x4000000 else 0x4000
/-- The key of program `i` of function `fn`. -/
def progKey (fn i : Nat) : Nat := 16 * fn + i
/-- The low `w` bits of a command dword field [hi:lo]. -/
def fld (w : Word) (hi lo : Nat) : Nat := bitsOf w.toNat hi lo

/-- The hoist die's KCLK counter. -/
def State.now (s : State) : Nat := s.clk.hoist.toNat
/-- The KCLK counter of face die `d`. -/
def State.dieNow (s : State) (d : Nat) : Nat :=
  if d = 0 then s.clk.face0.toNat else s.clk.face1.toNat
/-- The physical functions of the port mode in effect. -/
def State.pfs (s : State) : List Nat := if s.host.dual then [0, 17] else [0]
/-- Flash dies per stack: 16 at capacity 128, 8 at capacity 64 (Table 0.1). -/
def State.diesPerStack (s : State) : Nat := if s.mfg.cap128 then 16 else 8
/-- Advertised capacity in bytes (Table 0.1). -/
def State.advertised (s : State) : Nat := if s.mfg.cap128 then 112000000000000 else 56000000000000
/-- The function of the command operation `op`, if it runs. -/
def State.op (s : State) (i : Nat) : Option Op := s.host.ops.find? fun o => o.id == i

/-! ## Life cycle (R392, R408) -/

/-- The life-cycle state that a code names; a blank record reads BLANK. -/
def lcOfCode (c : Nat) : LifeCycle :=
  match c with
  | 1 => .provisioned
  | 2 => .deployed
  | 3 => .debug
  | 4 => .decommissioned
  | _ => .blank

/-- The code of a life-cycle state (Table 16.7). -/
def LifeCycle.code : LifeCycle → Nat
  | .blank => 0 | .provisioned => 1 | .deployed => 2 | .debug => 3 | .decommissioned => 4

/-- The life-cycle state: the code of the highest record entry; the decommissioned fuse overrides it
(Table 16.1). -/
def State.lifeCycle (s : State) : LifeCycle :=
  if s.sec.decommissioned then .decommissioned else lcOfCode ((s.sec.lcRecord.getLast?).getD 0)

/-- What Table 16.7 permits by class of command. -/
inductive CmdClass where
  /-- Identify and Get Log Page. -/
  | info
  | provision | slot0 | slot1 | signing | direct
  /-- Life Cycle Nonce and Life Cycle Transition. -/
  | lifeCycle
  | operational
deriving DecidableEq, Repr

/-- Whether Table 16.7 permits a class of command in a life-cycle state. Identify, Get Log Page and the
life-cycle commands in BLANK are DEDUCED (notes/assumptions/10.md). Direct media commands are answered by
R311 and R312 in DEPLOYED. -/
def permits (c : CmdClass) (l : LifeCycle) : Bool :=
  match l with
  | .blank => c == .info || c == .provision || c == .slot0 || c == .direct || c == .lifeCycle
  | .provisioned => c == .info || c == .slot1 || c == .signing || c == .direct || c == .lifeCycle ||
      c == .operational
  | .deployed => c == .info || c == .direct || c == .lifeCycle || c == .operational
  | .debug => c == .info || c == .slot1 || c == .signing || c == .direct || c == .lifeCycle ||
      c == .operational
  | .decommissioned => c == .info

/-! ## Assay monitors (R430-R435) -/

/-- Fields of a monitor's configuration in effect (Table 18.4). -/
def Monitor.enabled (m : Monitor) : Bool := bitOf m.live0.toNat 0
/-- Source ID. -/
def Monitor.source (m : Monitor) : Nat := bitsOf m.live0.toNat 15 8
/-- Source number within its kind. -/
def Monitor.inst (m : Monitor) : Nat := bitsOf m.live0.toNat 23 16
/-- Window length in ticks; 0 acts as 1,000 (R433). -/
def windowOf (cfg0 : DWord) : Nat :=
  if bitsOf cfg0.toNat 63 32 = 0 then 1000 else bitsOf cfg0.toNat 63 32
/-- Bin width; 0 acts as 1 (R433). -/
def Monitor.width (m : Monitor) : Nat :=
  if bitsOf m.live1.toNat 63 32 = 0 then 1 else bitsOf m.live1.toNat 63 32
/-- Lower edge of bin 1. -/
def Monitor.low (m : Monitor) : Int := signed 32 (bitsOf m.live1.toNat 31 0)

/-- The bin that counts value `v` (R432). -/
def Monitor.bin (m : Monitor) (v : Int) : Nat :=
  if v < m.low then 0 else Nat.min 31 ((v - m.low).toNat / m.width + 1)

/-- The snapshot that a closing window writes (Table 18.3). -/
def Monitor.snapshot (m : Monitor) (i : Nat) : Snapshot :=
  { monitor := i, source := m.source, inst := m.inst, saturated := m.saturated, changed := m.changed
    windowTicks := windowOf m.live0, windowStart := m.start, count := m.count, min := m.min
    max := m.max, sum := m.sum, bins := m.bins }

/-- The accumulators cleared. -/
def Monitor.cleared (m : Monitor) : Monitor :=
  { m with count := 0, min := 0x7FFFFFFF, max := -0x80000000, sum := 0
           bins := List.replicate 32 0, saturated := false }

/-- Rollover of monitor `i` at tick `now` (R430, R433): at the end of its open window it writes the
snapshot, clears its accumulators and takes a configuration that awaits this boundary; an enabled
monitor begins to capture at its boundary. -/
def Monitor.roll (m : Monitor) (i now : Nat) : Monitor :=
  if m.capturing then
    if m.start + windowOf m.live0 ≤ now then
      let c := { m.cleared with
        ring := (m.snapshot i :: m.ring).take 4
        windows := m.windows + 1
        changed := m.pending
        pending := false
        live0 := if m.pending then m.cfg0 else m.live0
        live1 := if m.pending then m.cfg1 else m.live1 }
      { c with capturing := c.enabled, start := now / windowOf c.live0 * windowOf c.live0 }
    else m
  else if m.enabled && decide (m.start ≤ now) then
    let c := { m.cleared with
      pending := false, changed := true, windows := 0
      live0 := if m.pending then m.cfg0 else m.live0
      live1 := if m.pending then m.cfg1 else m.live1 }
    { c with capturing := c.enabled, start := now / windowOf c.live0 * windowOf c.live0 }
  else m

/-- One value counted (R432): the count, the bin counts and the sum saturate. -/
def Monitor.take (m : Monitor) (v : Int) : Monitor :=
  let b := m.bin v
  let sum := clampInt (-0x8000000000000000) 0x7FFFFFFFFFFFFFFF (m.sum + v)
  let full := decide (m.count = 0xFFFFFFFF) || decide (m.bins.getD b 0 = 0xFFFFFFFF) ||
    decide (sum ≠ m.sum + v)
  { m with count := capNat 0xFFFFFFFF (m.count + 1), min := Min.min m.min v, max := Max.max m.max v
           sum := sum, bins := listMod m.bins b fun n => capNat 0xFFFFFFFF (n + 1)
           saturated := m.saturated || full }

/-- A value of source `src` and number `k` reaches the monitor block at tick `now`. -/
def Monitor.observe (m : Monitor) (i now src k : Nat) (v : Int) : Monitor :=
  let r := m.roll i now
  if r.capturing && r.source == src && r.inst == k then r.take v else r

/-- The state after a value of a source has reached every monitor that watches it (R430, R431). -/
def State.observe (s : State) (src k : Nat) (v : Int) : State :=
  s.modMgmt fun m => { m with
    monitors := m.monitors.map fun e => (e.1, e.2.observe e.1 s.now src k v) }

/-- Nanoseconds from tick `a` to tick `b` of KCLK at 3 MHz (R414). -/
def nsSince (b a : Nat) : Nat := (b - a) * 1000 / 3

/-- The region has been used at this tick: its idle time starts again (R419), and an entry into sleep whose
PLL still runs is aborted (R420). -/
def State.busy (s : State) (r : Nat) : State :=
  s.modRegion r fun g => { g with idleSince := some (s.dieNow (dieOf r)), entering := 0 }

/-- A region that goes to sleep: its clock and PLL are stopped, its contents stay (R17). -/
def Region.asleep (g : Region) : Region :=
  if g.st = .active ∨ g.st = .waking then
    { g with st := .sleep, entering := 0, idleSince := none, sleptPeriod := true }
  else g

/-! ## Completions and Asynchronous Events -/

/-- The completion queue of a command. -/
def Controller.cqOf (k : Controller) (sq : Nat) : Cq := tget {} k.cqs (tget {} k.sqs sq).cq

/-- What the module writes to host memory for a completion, in order (R292): the command's data, the entry, and the
message of the queue's vector, the last two with Relaxed Ordering clear. -/
def Completion.writes (c : Completion) (q : Cq) (n : Nat) : List HostWrite :=
  (if c.reply = .none then [] else [.data c.src (Config.relaxedData n)]) ++ [.entry c.src false] ++
    (if q.interrupts then [.message c.src.fn q.vector false] else [])

/-- A completion entry posted at its controller; a controller that is not ready has lost the command
and posts nothing (R294). The latency reaches the monitors (source 0x06 of Table 18.2). -/
def State.post (s : State) (c : Completion) (since : Nat) : State :=
  if (s.ctl c.src.fn).rdy then
    let s1 := s.modHost fun h => { h with
      completions := h.completions ++ [c]
      hostWrites := h.hostWrites ++ c.writes ((s.ctl c.src.fn).cqOf c.src.sq) h.completions.length }
    let s2 := s1.modCtl c.src.fn fun k => { k with idleSince := s.now }
    let us : Int := ((s.now - since) / 3 : Nat)
    (s2.observe 0x06 0 us).observe 0x06 (c.src.fn + 1) us
  else s

/-- A command completed at once. -/
def State.done (s : State) (c : Src) (st : Status) : State :=
  s.post { src := c, status := st } s.now

/-- A command completed successfully with a reply. -/
def State.answer (s : State) (c : Src) (r : Reply) : State :=
  s.post { src := c, status := .success, reply := r } s.now

/-- A command completed with Dwords 0 and 1. -/
def State.doneDw (s : State) (c : Src) (st : Status) (dw0 dw1 : Word) : State :=
  s.post { src := c, status := st, dw0 := dw0, dw1 := dw1 } s.now

/-- A new outstanding command. -/
def State.startOp (s : State) (c : Src) (k : OpKind) : State :=
  s.modHost fun h => { h with
    ops := h.ops ++ [{ id := h.nextOp, src := c, kind := k, since := s.now }]
    nextOp := h.nextOp + 1 }

/-- Operation `i` removed. -/
def State.dropOp (s : State) (i : Nat) : State :=
  s.modHost fun h => { h with ops := h.ops.filter fun o => o.id != i }

/-- Operation `i` completed with a status, dwords and a reply. -/
def State.finish (s : State) (i : Nat) (st : Status) (dw0 : Word := 0) (reply : Reply := .none) :
    State :=
  match s.op i with
  | none => s
  | some o => (s.dropOp i).post { src := o.src, status := st, dw0 := dw0, reply := reply } o.since

/-- The kind of operation `i` changed. -/
def State.modOp (s : State) (i : Nat) (f : OpKind → OpKind) : State :=
  s.modHost fun h => { h with
    ops := h.ops.map fun o => if o.id = i then { o with kind := f o.kind } else o }

/-- Dword 0 of an Asynchronous Event completion: type 7h, code and log page. -/
def aenDword (code log : Nat) : Word := BitVec.ofNat 32 (7 + 256 * code + 65536 * log)

/-- One event delivered to one controller: it completes the oldest outstanding Asynchronous Event
Request, or waits for one. -/
def State.deliverEvent (s : State) (code log fn : Nat) : State :=
  if (s.ctl fn).rdy then
    match (s.ctl fn).aers with
    | [] => s.modCtl fn fun k => { k with aenQueue := k.aenQueue ++ [(code, log)] }
    | cid :: rest =>
      let s1 := s.modCtl fn fun k => { k with aers := rest }
      let s2 := s1.modHost fun h => { h with aens := h.aens ++ [{ fn := fn, code := code, log := log }] }
      s2.post { src := { fn := fn, sq := 0, cid := cid }, status := .success, dw0 := aenDword code log }
        s2.now
  else s

/-- The PFs that have event `code` enabled (R314). The codes below 0x20 have their enable in Feature 0xC0 (Table 11.7),
which State.flashEvent tests. -/
def State.pfsEnabled (s : State) (code : Nat) : List Nat :=
  s.pfs.filter fun f => decide (code < 0x20) || !(s.ctl f).eventsOff.contains code

/-- An event of type 7h raised at every PF that has it enabled and at the functions `also` (R314). -/
def State.raiseAlso (s : State) (code log : Nat) (also : List Nat) : State :=
  ((s.pfsEnabled code ++ also).eraseDups).foldl (fun t fn => t.deliverEvent code log fn) s

/-- An event of type 7h raised at every PF that has it enabled (R314, R451). -/
def State.raise (s : State) (code log : Nat) : State := s.raiseAlso code log []

/-! ## Recovery Journal (R391) -/

/-- The KCLK count and stamp die for an entry that concerns face die `d`, or the hoist die for 2. -/
def State.stamped (s : State) (d : Nat) (e : JEntry) : JEntry :=
  { e with stampDie := d, kclk := if d = 2 then s.clk.hoist else if d = 0 then s.clk.face0 else s.clk.face1 }

/-- A Recovery Journal entry made: newest first, the last 256 kept, numbered from 1. -/
def State.journal (s : State) (e : JEntry) : State :=
  s.modMgmt fun m => { m with
    journal := ({ e with seq := m.journalTotal + 1 } :: m.journal).take 256
    journalTotal := m.journalTotal + 1 }

/-! ## Repair and Retirement log (R450, R451) -/

/-- An entry of the Repair and Retirement log, without its event. -/
def State.repairNote (s : State) (kind cause item detail : Nat) : State :=
  s.modMgmt fun m => { m with
    repairs := ({ seq := m.repairTotal + 1, uptime := m.uptime, kind := kind, cause := cause
                  item := item, detail := detail } :: m.repairs).take 1024
    repairTotal := m.repairTotal + 1 }

/-- An entry of the Repair and Retirement log; event 0x54 is raised (Table 18.9). -/
def State.repair (s : State) (kind cause item detail : Nat) : State :=
  (s.repairNote kind cause item detail).raise 0x54 0xC4

/-! ## Item counts -/

/-- True when global array `g` is in service (R30-R34, R110). -/
def State.arrayInService (s : State) (g : Nat) : Bool :=
  !s.mfg.fusedOff.contains g && !(s.arr (g / 4) (g % 4)).retired && !(s.bench (g / 4)).retired &&
    (s.region (g / 20)).st != .retired

/-- True when global bench `b` is in service. -/
def State.benchInService (s : State) (b : Nat) : Bool :=
  !(s.bench b).retired && (s.region (regionOf b)).st != .retired

/-- Matrix arrays that a grade enables (Table 0.1, R110). -/
def Grade.arrays : Grade → Nat
  | .A => 160 | .B => 144 | .C => 128

/-- What manufacture keeps of the grade (R1, R2, R110): exactly the arrays beyond the number that the grade names
are fused off, each once. -/
def Mfg.sound (m : Mfg) : Bool :=
  decide (m.fusedOff.length + m.grade.arrays = 160) && decide m.fusedOff.Nodup &&
    m.fusedOff.all fun g => decide (g < 160)

/-- Matrix arrays in service (R3). -/
def State.arraysInService (s : State) : Nat :=
  ((List.range 160).filter fun g => s.arrayInService g).length
/-- Benches in service. -/
def State.benchesInService (s : State) : Nat :=
  ((List.range 40).filter fun b => s.benchInService b).length
/-- Regions in service. -/
def State.regionsInService (s : State) : Nat :=
  ((List.range 8).filter fun r => (s.region r).st != .retired).length

/-! ## Power states (R316, R317) -/

/-- The highest-power state that any ready controller asks for; with none ready, the one in effect. -/
def State.askedPs (s : State) : Nat :=
  match (s.host.controllers.filter fun e => e.2.rdy).map fun e => e.2.ps with
  | [] => s.host.powerState
  | a :: r => r.foldl Nat.min a

/-- Every region put to sleep. -/
def State.sleepAll (s : State) : State := { s with regions := s.regions.map fun e => (e.1, e.2.asleep) }

/-- True when a ready controller keeps Non-Operational Power State Permissive Mode enabled, or none is ready (R318: it
is enabled by default; notes/assumptions/80.md). -/
def State.permissive (s : State) : Bool :=
  let l := s.host.controllers.filter fun e => e.2.rdy
  l.isEmpty || l.any fun e => e.2.permissive

/-- True when patrol, garbage collection and folding wait: a non-operational power state with Permissive Mode disabled
(R318). -/
def State.backgroundWaits (s : State) : Bool := decide (3 ≤ s.host.powerState) && !s.permissive

/-- The patrol period extends by the time that the patrol waits in PS3 and PS4 (R318). -/
def State.holdPatrol (s : State) : State :=
  s.modHost fun h =>
    match h.patrolHeld, s.backgroundWaits with
    | none, true => { h with patrolHeld := some s.now }
    | some t, false => { h with patrolHeld := none, patrolLost := h.patrolLost + (s.now - t) }
    | _, _ => h

/-- The power state in effect (R316): what the controllers ask for. PS3 and PS4 hold every region asleep
(R420). -/
def State.settlePower (s : State) : State :=
  let t := (s.modHost fun h => { h with powerState := s.askedPs }).holdPatrol
  if 3 ≤ s.askedPs then t.sleepAll else t

/-! ## The frame of a host command -/

/-- The submission queue's head after its next entry has been fetched. -/
def Sq.fetch (q : Sq) : Sq :=
  if q.head = q.tail then q else { q with head := if q.head + 1 = q.entries then 0 else q.head + 1 }

/-- A controller after a command of its queue `sq` has been fetched, in its turn of the arbitration or not; it returns
from a non-operational power state to the last operational one (R317). -/
def Controller.fetched (sq : Nat) (turn : Bool) (k : Controller) : Controller :=
  { k with
    sqs := if thas k.sqs sq then tmod {} k.sqs sq Sq.fetch else k.sqs
    arb := if turn then k.arbitrated sq else k.arb
    ps := if 3 ≤ k.ps then k.lastOpPs else k.ps }

/-- A command fetched from its queue (R296, notes/assumptions/117.md). -/
def State.fetch (s : State) (c : Src) : State :=
  let turn := s.nextFetch == some (c.fn, c.sq)
  let s1 := (s.modCtl c.fn (Controller.fetched c.sq turn)).modHost fun h => { h with
    turn := if turn then c.fn else h.turn }
  if 3 ≤ (s.ctl c.fn).ps then s1.settlePower else s1

/-- True when a command can be fetched from queue `c.sq`: its controller is ready (R299), and the queue is the admin queue
or has been created (R295). -/
def State.takes (s : State) (c : Src) : Bool :=
  (s.ctl c.fn).rdy && (c.sq == 0 || thas (s.ctl c.fn).sqs c.sq)

/-- A command of the host: fetched only from a queue that exists at a controller that is ready (R295, R299), refused with
Command Sequence Error where the life-cycle state does not permit it (R408, R412), otherwise done by `f`. -/
def hostCmd (c : Src) (cls : CmdClass) (f : State → State) (s : State) : State :=
  if s.takes c then
    if permits cls s.lifeCycle then f (s.fetch c) else (s.fetch c).done c .commandSequenceError
  else s

/-- A command that only physical functions may issue: a VF receives Invalid Command Opcode (R310,
R412). -/
def pfCmd (c : Src) (cls : CmdClass) (f : State → State) (s : State) : State :=
  hostCmd c cls (fun t => if isPf c.fn then f t else t.done c .invalidOpcode) s

/-- The state `f` makes when `cond` holds, the state unchanged when the event's condition does not hold
(notes/assumptions/3.md). -/
def when (cond : Bool) (f : State → State) (s : State) : State := if cond then f s else s

/-- Writes byte list `bs` as a data reply limited to a window of `len` bytes at `off` (Get Log Page). -/
def window (bs : List Byte) (off len : Nat) : Buf :=
  Buf.ofBytes ((bs ++ List.replicate (off + len - bs.length) 0).drop off |>.take len)

end Sys2Proof.Machine
end

