-- ==== Sys2Proof/Machine/Ecc.lean ====
section
/-! DEFINITION. The codes over the memories (R368-R376, R381): errors held by words, what a read of such
a word does, and the injection of the test registers. -/

namespace Sys2Proof.Machine

/-- Bytes of the protected word of a memory of Table 15.8: a codeword holds 256 data bytes in DRAM, a
word 8 in SRAM (Table 15.1). -/
def wordBytes (memory : Nat) : Nat := if memory = 7 then 256 else 8

/-- The sum of a list of weights. -/
def weightOf (w : List Nat) : Nat := w.foldl (· + ·) 0

/-- The DRAM stack (global) that holds the codeword at a tensor-space address (R470). -/
def stackAt (addr : Nat) : Nat :=
  2 * (addr / 2 ^ 47 % 2) + b2n (Config.frameStack (addr / 65536))

/-- What decoding a word gives. -/
inductive Decoded where
  | clean
  /-- Corrected; the flag says by die trial. -/
  | corrected (trial : Bool)
  | uncorrectable
  /-- More errors than the code promises to detect (R381). -/
  | beyond
deriving DecidableEq, Repr

/-- The outcome for a word of weights `w` (R369, R372, R373, R381). `erased` is the core die that the
stack's erasure mode leaves out. -/
def decodeWord (memory : Nat) (erased : Option Nat) (w : List Nat) : Decoded :=
  if weightOf w = 0 then .clean
  else if memory = 7 then
    match erased with
    | some e =>
      if weightOf w - w.getD e 0 = 0 then .clean
      else if weightOf w - w.getD e 0 ≤ 3 then .corrected false else .beyond
    | none =>
      if weightOf w ≤ 8 then .corrected false
      else if (List.range 16).any fun d => decide (weightOf w - w.getD d 0 ≤ 3) then .corrected true
      else .beyond
  else if weightOf w = 1 then .corrected false
  else if weightOf w = 2 then .uncorrectable
  else .beyond

/-- The error entries of a memory that overlap `n` bytes at `a`. -/
def State.faultsIn (s : State) (memory place a n : Nat) : List (Nat × Nat × Nat × List Nat) :=
  s.mgmt.planted.filter fun e =>
    e.1 == memory && e.2.1 == place && decide (e.2.2.1 < a + n) &&
      decide (a < e.2.2.1 + wordBytes memory)

/-- An error entry removed. -/
def State.dropFault (s : State) (memory place a : Nat) : State :=
  s.modMgmt fun m => { m with
    planted := m.planted.filter fun e => !(e.1 == memory && e.2.1 == place && e.2.2.1 == a) }

/-- An error put into a word; weight 0 puts none. -/
def State.plant (s : State) (memory place a : Nat) (w : List Nat) : State :=
  let s1 := s.dropFault memory place a
  if weightOf w = 0 then s1
  else s1.modMgmt fun m => { m with planted := m.planted ++ [(memory, place, a, w)] }

/-- The core die of a DRAM stack that is in erasure mode (R373). -/
def State.erasedOf (s : State) (stack : Nat) : Option Nat :=
  if thas s.mgmt.erasure stack then some (tget 0 s.mgmt.erasure stack) else none

/-- The core die that erasure mode leaves out of the stack that holds a DRAM word. -/
def State.erasedAt (s : State) (memory a : Nat) : Option Nat :=
  if memory = 7 then s.erasedOf (stackAt a) else none

/-- The core dies that a correction of a DRAM codeword names: that of the trial (R373), or in erasure mode
every other die that holds a corrected symbol (R374). -/
def diesNamed (erased : Option Nat) (trial : Bool) (w : List Nat) : List Nat :=
  (List.range 16).filter fun d =>
    match erased with
    | some e => decide (d ≠ e) && decide (0 < w.getD d 0)
    | none => trial && decide (weightOf w - w.getD d 0 ≤ 3)

/-- A core die named in the codeword at `a`: each codeword and each row counts once. -/
def DieNames.name (n : DieNames) (a : Nat) : DieNames :=
  { words := if n.words.contains (a / 256) then n.words else a / 256 :: n.words
    rows := if n.rows.contains (a / 8192) then n.rows else a / 8192 :: n.rows }

/-- A corrected codeword at `a` of a DRAM stack counts towards the criteria of the dies it names. -/
def State.nameDies (s : State) (stack a : Nat) (dies : List Nat) : State :=
  s.modMgmt fun m => { m with
    dieNames := dies.foldl (fun t d => tmod {} t (16 * stack + d) fun n => n.name a) m.dieNames }

/-- True when a core die meets the criteria of R373: named in 64 codewords within one management period, or in
codewords of 16 distinct rows. -/
def State.dieCriteria (s : State) (stack d : Nat) : Bool :=
  let n := tget {} s.mgmt.dieNames (16 * stack + d)
  decide (64 ≤ n.words.length) || decide (16 ≤ n.rows.length)

/-- `n` free bytes from address `a` on (notes/assumptions/5.md). -/
def freeBytes (draw a : Nat) (n : Nat) : List Byte :=
  (List.range n).map fun i => Config.undefByte draw (a + i)

/-- The contents of a memory replaced by free bytes over the word at `a`. -/
def State.scramble (s : State) (memory place a draw : Nat) : State :=
  let bs := freeBytes draw a (wordBytes memory)
  if memory = 1 then s.modBench place fun b => { b with t0 := b.t0.putBytes a bs }
  else s.modTs fun t => { t with mem := t.mem.putBytes a bs }

/-- One word read through its decoder: a correction is counted and written back (R369, R372); the
answer tells whether the word is uncorrectable. -/
def State.readWord (s : State) (e : Nat × Nat × Nat × List Nat) : State × Bool :=
  match decodeWord e.1 (s.erasedAt e.1 e.2.2.1) e.2.2.2 with
  | .clean => (s, false)
  | .uncorrectable => (s, true)
  | .corrected trial =>
    let s1 := (s.dropFault e.1 e.2.1 e.2.2.1).nameDies (stackAt e.2.2.1) e.2.2.1
      (if e.1 = 7 then diesNamed (s.erasedAt e.1 e.2.2.1) trial e.2.2.2 else [])
    (s1.modMgmt fun m => { m with
      memCorr := if e.1 = 7 then m.memCorr else m.memCorr + 1
      memDcorr := if e.1 = 7 then m.memDcorr + 1 else m.memDcorr
      memTrials := if trial then m.memTrials + 1 else m.memTrials }, false)
  | .beyond =>
    let k := Config.beyondCode s.mgmt.eccDraws (weightOf e.2.2.2)
    let s1 := s.modMgmt fun m => { m with eccDraws := m.eccDraws + 1 }
    if k % 3 = 0 then (s1, true)
    else
      let s2 := (s1.dropFault e.1 e.2.1 e.2.2.1).scramble e.1 e.2.1 e.2.2.1 (drawOf 63 s.mgmt.eccDraws)
      if k % 3 = 1 then
        (s2.modMgmt fun m => { m with
          memCorr := if e.1 = 7 then m.memCorr else m.memCorr + 1
          memDcorr := if e.1 = 7 then m.memDcorr + 1 else m.memDcorr }, false)
      else (s2, false)

/-- Every listed word read; the answer is the address of the first uncorrectable one. -/
def State.readWords (s : State) : List (Nat × Nat × Nat × List Nat) → State × Option Nat
  | [] => (s, none)
  | e :: r =>
    match s.readWord e with
    | (s1, true) => (s1, some e.2.2.1)
    | (s1, false) => s1.readWords r

/-- `n` bytes at `a` of a memory read through its decoder: the state after the corrections, and the
address of the first uncorrectable word. -/
def State.eccRead (s : State) (memory place a n : Nat) : State × Option Nat :=
  s.readWords (s.faultsIn memory place a n)

/-- The words that a write of `n` bytes at `a` covers only in part are read first (R371, R375). -/
def State.eccMerge (s : State) (memory place a n : Nat) : State × Option Nat :=
  let w := wordBytes memory
  s.readWords ((s.faultsIn memory place a n).filter fun e =>
    decide (e.2.2.1 < a) || decide (a + n < e.2.2.1 + w))

/-- Words that a write of `n` bytes at `a` has rewritten hold no error any more. -/
def State.eccFresh (s : State) (memory place a n : Nat) : State :=
  if s.mgmt.planted.isEmpty then s
  else s.modMgmt fun m => { m with
    planted := m.planted.filter fun e =>
      !(e.1 == memory && e.2.1 == place && decide (e.2.2.1 < a + n) &&
        decide (a < e.2.2.1 + wordBytes memory)) }

/-- The memory code of Table 15.8 that HD_ECC_TEST_CTRL.memory names. -/
def eccMemoryCode (k : Nat) : Nat := if k = 1 then 1 else if k = 2 then 2 else if k = 3 then 7 else 0

/-- Address of the word that the test registers name, and the bench when it lies in T0 (Table 15.4). -/
def State.eccTarget (s : State) : Nat × Nat :=
  let v := s.mgmt.eccAddr.toNat
  if s.mgmt.eccMemory = 1 then (bitsOf v 29 24, bitsOf v 22 0 / 8 * 8)
  else if s.mgmt.eccMemory = 2 then (0, bitsOf v 47 0 / 8 * 8)
  else (0, bitsOf v 47 0 / 256 * 256)

/-- Bits that differ between two byte lists. -/
def bitDiff : List Byte → List Byte → Nat
  | a :: as, b :: bs => popCount 8 (a ^^^ b).toNat + bitDiff as bs
  | _, _ => 0

/-- Symbols of two bytes that differ, counted by core die: die d holds symbols 9d to 9d + 8 (R372). -/
def symbolDiff (old new : List Byte) : List Nat :=
  (List.range 16).map fun d =>
    ((List.range 9).filter fun i =>
      let j := 9 * d + i
      decide (j < 128) && (old.getD (2 * j) 0 != new.getD (2 * j) 0 ||
        old.getD (2 * j + 1) 0 != new.getD (2 * j + 1) 0)).length

/-- The weights that a FLIP injection plants: bits of both masks in SRAM; the first count_a symbols of
die_a and the first count_b of die_b in DRAM, a symbol flipped twice being unchanged (R381). -/
def State.flipWeights (s : State) : List Nat :=
  let m := s.mgmt
  if m.eccMemory = 3 then
    let a := fld m.eccCmask 11 8
    let ca := capNat 9 (fld m.eccCmask 15 12)
    let b := fld m.eccCmask 19 16
    let cb := capNat 9 (fld m.eccCmask 23 20)
    (List.range 16).map fun d =>
      if a = b then (if d = a then (ca - cb) + (cb - ca) else 0)
      else if d = a then ca else if d = b then cb else 0
  else [popCount 64 m.eccDmask.toNat + popCount 8 (fld m.eccCmask 7 0)]

/-- An armed injection meets a write of `n` bytes at `a` that turned `old` into `new` (R381): the
state with the error held, and the memory contents that the check bits protect. -/
def State.inject (s : State) (memory place a n : Nat) (old new : Mem) : State × Mem :=
  let m := s.mgmt
  let t := s.eccTarget
  let w := wordBytes memory
  if m.eccArm && (m.eccMode == 1 || m.eccMode == 2) && eccMemoryCode m.eccMemory == memory &&
      t.1 == place && decide (t.2 < a + n) && decide (a < t.2 + w) then
    let ob := old.getBytes t.2 w
    let nb := new.getBytes t.2 w
    let weights := if m.eccMode = 2 then s.flipWeights
      else if memory = 7 then symbolDiff ob nb else [bitDiff ob nb]
    let s1 := (s.plant memory place t.2 weights).modMgmt fun x => { x with
      eccArm := false, eccInjected := true }
    (s1, if m.eccMode = 1 then new.putBytes t.2 ob else new)
  else (s, new)

/-- A write of `f` to T0 of bench `b` over `n` bytes at `a`. -/
def State.t0Write (s : State) (b a n : Nat) (f : Mem → Mem) : State :=
  let old := (s.bench b).t0
  let r := (s.eccFresh 1 b a n).inject 1 b a n old (f old)
  r.1.modBench b fun x => { x with t0 := r.2 }

end Sys2Proof.Machine
end

