-- ==== Sys2Proof/Machine/ProgOps.lean ====
section
/-! DEFINITION. The operations on programs and benches that commands, faults and resets share: which
benches and channel groups a program holds, the end of an execution, the release of a bench and the
retirement of a unit (R26, R33, R144-R146, R208). -/

namespace Sys2Proof.Machine

/-! ## Addresses (R164) -/

/-- Bytes of a space tile. -/
def tileBytes : Nat := 65536
/-- The face die of a tensor-space address. -/
def addrDie (a : Nat) : Nat := a / 2 ^ 47 % 2
/-- The slot of an address. -/
def addrSlot (a : Nat) : Nat := a / 2 ^ 31 % 65536
/-- The space tile of an address. -/
def addrTile (a : Nat) : Nat := a / 65536 % 32768
/-- The base address of slot `j` of face die `d`. -/
def extentBase (d j : Nat) : Nat := d * 2 ^ 47 + j * 2 ^ 31
/-- The address of space tile `t` of slot `j` of face die `d`. -/
def tileAddr (d j t : Nat) : Nat := extentBase d j + t * 65536
/-- True when an address is the base of a slot. -/
def isBase (a : Nat) : Bool := decide (a < 2 ^ 48) && decide (a % 2 ^ 31 = 0)

/-! ## Hoist windows (R185) -/

/-- The layers of a hoist list's window. -/
def HoistList.window (h : HoistList) (c : Option Nat) : List Nat :=
  match c with
  | none => List.range (Nat.min h.lookahead h.layers)
  | some c =>
    let ls := (List.range h.lookahead).map fun i => c + 1 + i
    if h.wrap then ls.map fun l => l % h.layers else ls.filter fun l => decide (l < h.layers)

/-- True when an extent lies in the window of a running hoist list. -/
def State.inWindow (s : State) (base : Nat) : Bool :=
  s.host.programs.any fun p =>
    match p.2.running, p.2.hoist with
    | some _, some h => h.entries.any fun e =>
        e.extent == base && (h.window p.2.hoistLayer).contains e.layer
    | _, _ => false

/-! ## Waiting accesses (R175, R180) -/

/-- The extents of both face dies changed by `f`. -/
def State.mapExtents (s : State) (f : Extent → Extent) : State :=
  s.modTs fun t => { t with dies := t.dies.map fun x =>
    (x.1, { x.2 with slots := x.2.slots.map fun e => (e.1, f e.2) }) }

/-- The accesses of the waiters for which `p` holds wait no longer. -/
def State.forgetWaits (s : State) (p : Waiter → Bool) : State :=
  s.mapExtents fun e => { e with waiting := e.waiting.filter fun w => !p w.1 }

/-! ## Programs -/

/-- The benches bound to program `k`. -/
def State.benchesOf (s : State) (k : Nat) : List Nat := (s.prog k).binds.map (·.bench)

/-- The physical channel groups that a binding holds in its region (R141). -/
def Binding.groups (b : Binding) : List Nat :=
  ((List.range 4).filter fun l => bitOf b.groupMask l).map fun l => b.groupMap.getD l 0

/-- The program that holds channel group `g` of region `r`, if one does. -/
def State.groupHolder (s : State) (r g : Nat) : Option Nat :=
  (List.range 5).findSome? fun i =>
    match (s.bench (5 * r + i)).bind with
    | some b => if b.groups.contains g then some b.prog else none
    | none => none

/-- Pending requests of the lines of program `k`'s groups discarded (R208). -/
def State.discardRequests (s : State) (k : Nat) : State :=
  (List.range 8).foldl (fun t r => t.modHaul r fun h =>
    let gone := fun q : Req => s.groupHolder r (q.line / 16) == some k
    { h with reqs := h.reqs.filter fun q => !gone q
             done := h.done.filter fun o => !(h.reqs.any fun q => q.order == o.order && gone q) }) s

/-- An array whose started and waiting operations are abandoned, but for a load that has begun: only a reset
abandons that (R93). -/
def Arr.abandoned (a : Arr) : Arr := { a with streams := [], drain := none, queue := [] }

/-- An array whose operations not yet started are dropped. -/
def Arr.unqueued (a : Arr) : Arr := { a with queue := [] }

/-- A bench stopped at a step boundary with a new state of its sequencer. With `abandon`, the operations
it has started are abandoned; otherwise they go on to their end. -/
def Bench.stopped (b : Bench) (st : SeqState) (abandon : Bool) : Bench :=
  let b1 : Bench := { b with
    seq := { b.seq with st := st, waitCause := [], waitSince := none, gateSince := none
                        atBarrier := none, arriving := none, skipTested := false, finishing := false
                        routeInbox := [] }
    gate := { b.gate with waiting := false, fired := false }
    arrays := b.arrays.map fun e => (e.1, if abandon then e.2.abandoned else e.2.unqueued) }
  if abandon then
    { b1 with vec := { b1.vec with running := false }
              walker := { b1.walker with launch := none, search := none } }
  else b1

/-- Fetching for program `k` ends with its execution (R186): its hoist moves that have not started leave the queues,
but for those of the window of another running program. -/
def State.endFetch (s : State) (k : Nat) : State :=
  match (s.prog k).hoist with
  | none => s
  | some h =>
    let t := s.modProg k fun p => { p with running := none, hoistLayer := none }
    s.modTs fun x => { x with dies := x.dies.map fun e => (e.1, { e.2 with
      queue := e.2.queue.filter fun m => !(m.cls == 2 &&
        (h.entries.any fun y => y.extent == extentBase e.1 m.slot) && !t.inWindow (extentBase e.1 m.slot)) }) }

/-- The end of an execution of program `k` (R145, R146, R208): its benches stop, the one that faulted
is left FAULTED with its code and pc, its pending requests are discarded. The command's completion is
not posted here. -/
def State.stopExecution (s : State) (k : Nat) (abandon : Bool) (fault : Option (Nat × Nat × Nat)) :
    State :=
  let s1 := (s.benchesOf k).foldl (fun t b => t.modBench b fun x =>
    match fault with
    | some (fb, code, pc) =>
      if b = fb then
        let y := x.stopped .faulted abandon
        { y with seq := { y.seq with faultCode := code, faultPc := pc } }
      else if x.seq.st = .ended then x else x.stopped .bound abandon
    | none => if x.seq.st = .ended then x else x.stopped .bound abandon) s
  let s2 := (s.benchesOf k).foldl (fun t b => t.busy (regionOf b)) s1
  let bs := s.benchesOf k
  let s3 := s2.forgetWaits fun w => match w with
    | .unit b _ => bs.contains b
    | .line r l => s.groupHolder r (l / 16) == some k
    | _ => false
  ((s3.discardRequests k).endFetch k).modProg k fun p => { p with
    running := none, arrived := [], ended := [], hoistLayer := none }

/-- Completion Dword 0 of a program fault (R145). -/
def faultDword (code logical pc : Nat) : Word :=
  BitVec.ofNat 32 (code + 256 * logical + 16384 * pc)

/-- An execution ended early with a status: its operations are abandoned and its command completes. -/
def State.endExecution (s : State) (k : Nat) (st : Status) (dw0 : Word)
    (fault : Option (Nat × Nat × Nat)) : State :=
  match (s.prog k).running with
  | none => s
  | some op => (s.stopExecution k true fault).finish op st dw0

/-- A fault of Table 5.10 found on bench `b` at step `pc`: it ends the execution of the program bound
there with status 0xC1 (R145). -/
def State.benchFault (s : State) (b code pc : Nat) : State :=
  match (s.bench b).bind with
  | none => s
  | some g => s.endExecution g.prog (.vendor 0xC1) (faultDword code g.logical pc) (some (b, code, pc))

/-- A status other than a fault that ends the execution of the program bound to bench `b`. -/
def State.benchEnd (s : State) (b : Nat) (st : Status) (dw0 : Word) : State :=
  match (s.bench b).bind with
  | none => s
  | some g => s.endExecution g.prog st dw0 none

/-- A bench released (R26, R98, R139): its T0, step, kernel, descriptor and jump memories, vector
registers and accumulator banks are zeroed and nothing is bound. -/
def Bench.released (b : Bench) : Bench :=
  let b1 := b.stopped .unbound true
  { b1 with bind := none, t0 := [], steps := [], kernel := [], descs := [], jumps := []
            vec := {}
            arrays := b1.arrays.map fun e => (e.1, { e.2 with banks := [], owner := none })
            seq := { b1.seq with pc := 0, loopCount := [none, none, none, none], loopIdx := [0, 0, 0, 0]
                                 ags := [none, none, none, none], countRegs := [0, 0, 0, 0]
                                 gateCount := 0, tileAddr := [], routeQueue := [] } }

/-- Errors of an item of kind `kind` of Table 18.8 counted in its 24-hour window (R449). -/
def State.errorCount (s : State) (kind item : Nat) : Nat :=
  (tget [] s.mgmt.errorCounts (65536 * kind + item)).length

/-- An error of an item counted; errors older than 24 hours of up-time drop out (R449). -/
def State.countError (s : State) (kind item : Nat) : State :=
  s.modMgmt fun m => { m with
    errorCounts := tmod [] m.errorCounts (65536 * kind + item) fun l =>
      m.uptime :: l.filter fun u => decide (m.uptime < u + 259200000) }

/-- A second logic error makes a unit due for retirement: it is marked pending (R33, R113, Table 18.7). -/
def State.unitDue (s : State) (kind item : Nat) : State :=
  if s.errorCount kind item < 2 then s
  else match kind with
  | 0x01 =>
    if (s.arr (item / 4) (item % 4)).retirePending ∨ (s.arr (item / 4) (item % 4)).retired then s
    else (s.modArr (item / 4) (item % 4) fun x => { x with retirePending := true }).repair 0x02 0x01 item 0
  | 0x03 => s.modBench item fun x => { x with
      walker := { x.walker with retirePending := !x.walker.retired } }
  | 0x06 => s.modHaul (item / 4) fun h =>
      if h.pendingGroups.contains (item % 4) || h.retiredGroups.contains (item % 4) then h
      else { h with pendingGroups := h.pendingGroups ++ [item % 4] }
  | _ => s.modBench item fun x => { x with retirePending := !x.retired }

/-- A logic error of a unit, counted and evaluated. -/
def State.unitFailed (s : State) (kind item : Nat) : State := (s.countError kind item).unitDue kind item

/-- Array `a` of bench `b` leaves service (Table 1.6). -/
def State.retireArray (s : State) (b a cause : Nat) : State :=
  (s.modArr b a fun x => { x with retired := true, retirePending := false }).repair 0x01 cause
    (4 * b + a) 0

/-- The walker of bench `b` leaves service. -/
def State.retireWalker (s : State) (b cause : Nat) : State :=
  (s.modBench b fun x => { x with
    walker := { x.walker with retired := true, retirePending := false } }).repair 0x03 cause b 0

/-- Bench `b` leaves service; the entry names the vector unit or sequencer whose errors made it due. -/
def State.retireBench (s : State) (b cause : Nat) : State :=
  let k := if 2 ≤ s.errorCount 0x04 b then 0x04 else if 2 ≤ s.errorCount 0x05 b then 0x05 else 0x07
  (s.modBench b fun x => { x with retired := true, retirePending := false }).repair k cause b 0

/-- Retirements pending on bench `b` take effect (R33): called when no program is bound to it. -/
def State.applyRetirements (s : State) (b cause : Nat) : State :=
  let s1 := (List.range 4).foldl (fun t a =>
    if (t.arr b a).retirePending then t.retireArray b a cause else t) s
  let s2 := if (s1.bench b).walker.retirePending then s1.retireWalker b cause else s1
  if (s2.bench b).retirePending then s2.retireBench b cause else s2

/-- Channel groups of region `r` pending retirement that no program holds leave service (R33). -/
def State.retireGroups (s : State) (r cause : Nat) : State :=
  (s.region r).haul.pendingGroups.foldl (fun t g =>
    if (t.groupHolder r g).isSome then t
    else (t.modHaul r fun h => { h with
      pendingGroups := h.pendingGroups.filter fun x => x != g
      retiredGroups := h.retiredGroups ++ [g] }).repair 0x06 cause (4 * r + g) 0) s

/-- Errors that words of T0 and of the memories of bench `b` hold are gone once those are zeroed (R26). -/
def State.dropPlanted (s : State) (b : Nat) : State :=
  s.modMgmt fun m => { m with planted := m.planted.filter fun e => !(e.1 != 2 && e.1 != 7 && e.2.1 == b) }

/-- Program `k` unloaded: its binding released, its hoist list discarded, pending retirements of its
benches taken (R306, R26, R33, R208). -/
def State.unload (s : State) (k : Nat) : State :=
  let bs := s.benchesOf k
  let s1 := s.discardRequests k
  let s2 := bs.foldl (fun t b => ((t.modBench b Bench.released).dropPlanted b).applyRetirements b 0x01) s1
  let s3 := ((bs.map regionOf).eraseDups).foldl (fun t r => t.retireGroups r 0x01) s2
  s3.modHost fun h => { h with programs := tdel h.programs k }

end Sys2Proof.Machine
end

