-- ==== Sys2Proof/Machine/ResetOps.lean ====
section
/-! DEFINITION. The start of a region or face die reset, which any consumer of an uncorrectable error
can trigger: isolation, the stop of the programs and the end of the writes whose buffers are lost
(R20-R25, R266, R382 steps 1 and 2, R388). -/

namespace Sys2Proof.Machine

/-- The regions within a reset scope (1 region, 2 face die, 3 module, 4 cold). -/
def scopeRegions (scope idx : Nat) : List Nat :=
  match scope with
  | 1 => [idx]
  | 2 => (List.range 4).map fun r => 4 * idx + r
  | _ => List.range 8

/-- The benches within a reset scope. -/
def scopeBenches (scope idx : Nat) : List Nat :=
  (scopeRegions scope idx).flatMap fun r => (List.range 5).map fun b => 5 * r + b

/-- True when the scope `(a, i)` lies within the scope `(b, j)` (R24). -/
def scopeWithin (a i b j : Nat) : Bool :=
  decide (3 ≤ b ∧ a ≤ b) || (a == b && i == j) || (a == 1 && b == 2 && i / 4 == j)

/-- A bench whose work a reset of its scope abandons at once (R382 step 1). -/
def Bench.isolated (b : Bench) : Bench :=
  let x := b.stopped .unbound true
  { x with arrays := x.arrays.map fun e => (e.1, { e.2 with load := none }) }

/-- Program keys with a bench bound within a scope. -/
def State.programsIn (s : State) (scope idx : Nat) : List Nat :=
  ((scopeBenches scope idx).filterMap fun b => (s.bench b).bind.map (·.prog)).eraseDups

/-- Completion of a command that a reset ends. -/
def lostCompletion (c : Src) : Completion := { src := c, status := .vendor 0xC0 }

/-- Two block ranges of one namespace overlap. -/
def overlaps (a n b m : Nat) : Bool := decide (a < b + m) && decide (b < a + n)

/-- Write parts that a void write takes with it: later parts of the same queue that overlap it and
are not completed (R388). -/
def voidedBy (ps : List Part) (v : Part) : List Part :=
  ps.filter fun p => p.src.fn == v.src.fn && p.src.sq == v.src.sq && p.nsid == v.nsid &&
    decide (v.order < p.order) && decide (p.stage < 4) && overlaps p.slba p.blocks v.slba v.blocks

/-- Parts voided by the loss of `v`, spread to the writes that overlap in turn. -/
def voidClosure : Nat → List Part → List Part → List Nat
  | 0, _, vs => vs.map (·.id)
  | n + 1, ps, vs =>
    let more := (vs.flatMap fun v => voidedBy ps v).filter fun p => !(vs.any fun v => v.id == p.id)
    if more.isEmpty then vs.map (·.id) else voidClosure n ps (vs ++ more)

/-- The write commands whose parts are among `ids`. -/
def State.writeOpsOf (s : State) (ids : List Nat) : List Nat :=
  ((s.flash.parts.filter fun p => ids.contains p.id).map (·.op)).eraseDups

/-- True when two parts hold a common IU. -/
def sameIu (p q : Part) : Bool := p.nsid == q.nsid && p.ius.any fun x => q.ius.any fun y => x.1 == y.1

/-- Records that go into the journal together. -/
def State.queueRecs (s : State) (part : Option Nat) (rs : List JRec) : State :=
  s.modFlash fun f => { f with queued := f.queued ++ [(part, rs)] }

/-- The records of a part (R264, R469): its DEALLOC range and its WRITE record. -/
def Part.records (p : Part) : List JRec :=
  (if p.unmap.2 = 0 then [] else [JRec.dealloc p.nsid p.unmap.1 p.unmap.2]) ++
  (if p.ius.isEmpty then [] else
    [JRec.write p.nsid p.slba p.blocks (p.ius.map fun x => (x.1, x.2.2 - 1))])

/-- Two parts touch a common IU. -/
def Part.touches (p q : Part) : Bool :=
  p.nsid == q.nsid && decide (p.slba / 4 ≤ (q.slba + q.blocks - 1) / 4) &&
    decide (q.slba / 4 ≤ (p.slba + p.blocks - 1) / 4)

/-- Parts whose records may now be queued: programmed in full, with no earlier overlapping part still on
its way there (R302). -/
def Flash.readyParts (f : Flash) : List Part :=
  f.parts.filter fun p => p.stage == 2 &&
    !(f.parts.any fun q => decide (1 ≤ q.stage) && decide (q.stage ≤ 2) &&
      decide (q.order < p.order) && q.touches p)

/-- The records of every part that may go are queued, in acceptance order. -/
def State.queueReady : Nat → State → State
  | 0, s => s
  | n + 1, s =>
    match (sortBy (fun a b => decide (a.order ≤ b.order)) s.flash.readyParts).head? with
    | none => s
    | some p =>
      State.queueReady n ((s.modFlash fun f => { f with
        parts := f.parts.map fun q => if q.id = p.id then { q with stage := 3 } else q }).queueRecs
          (some p.id) p.records)

/-- Parts `ids` are void: they take no effect and their queued records are dropped. A later part that merged an IU with
an accepted one of them programs that IU again, and the records of the parts accepted after such a part are queued anew
behind its own (R302). -/
def State.voidIds (s : State) (ids : List Nat) : State :=
  let gone := s.flash.parts.filter fun p => ids.contains p.id && decide (p.stage < 4)
  let mixed := fun (p : Part) (iu : Nat) => gone.any fun v => decide (1 ≤ v.stage) && decide (v.order < p.order) &&
    v.nsid == p.nsid && v.ius.any fun y => y.1 == iu
  let redo := fun p : Part => decide (1 ≤ p.stage) && decide (p.stage < 4) && !(gone.any fun v => v.id == p.id) &&
    p.ius.any fun x => mixed p x.1
  let back := fun p : Part => p.stage == 3 && s.flash.parts.any fun q => redo q && q.nsid == p.nsid &&
    decide (q.order < p.order)
  (s.modFlash fun f => { f with
    parts := f.parts.map fun p =>
      if gone.any fun v => v.id == p.id then { p with stage := 5 }
      else if redo p then { p with
        stage := 1, ius := p.ius.map fun x => if mixed p x.1 then (x.1, x.2.1, 0) else x }
      else if back p then { p with stage := 2 }
      else p
    programmed := f.programmed.filter fun e => f.parts.any fun p =>
      p.id == e.part && !(gone.any fun v => v.id == p.id) && !mixed p e.iu
    queued := f.queued.filter fun g =>
      match g.1 with
      | none => true
      | some i => !(f.parts.any fun p => p.id == i && ((gone.any fun v => v.id == i) || redo p || back p)) }).queueReady
        64

/-- Parts of the commands `ops` that are not yet durable are void. -/
def State.voidParts (s : State) (ops : List Nat) : State :=
  s.voidIds ((s.flash.parts.filter fun p => ops.contains p.op).map (·.id))

/-- Flush commands that cover one of the write commands `ops` (OP-4 of Table 15.6). -/
def State.flushesOf (s : State) (ops : List Nat) : List Nat :=
  s.host.ops.filterMap fun o =>
    match o.kind with
    | .flush ws => if ws.any fun w => ops.contains w then some o.id else none
    | _ => none

/-- Operations dropped from the list of outstanding commands; their completions, to be posted at
step 7 of the reset, are returned. -/
def State.takeOps (s : State) (ids : List Nat) : State × List (Completion × Nat) :=
  (s.modHost fun h => { h with ops := h.ops.filter fun o => !ids.contains o.id },
   (s.host.ops.filter fun o => ids.contains o.id).map fun o => (lostCompletion o.src, o.since))

/-- True when an outstanding command is one that a reset of face die `d` ends with 0xC0 (Table 12.7): its
data lie in the tensor space that the reset empties. -/
def needsDie (d : Nat) : OpKind → Bool
  | .memRead a _ => a / 2 ^ 47 == d
  | .memWrite a _ => a / 2 ^ 47 == d
  | .memCopy a _ _ _ _ => a / 2 ^ 47 == d
  | .peerBind e _ _ => e == d
  | .peerCopy a _ _ _ _ => a / 2 ^ 47 == d
  | _ => false

/-- Scan `i` removed: its pin, the map values kept for it and its key registers are released (R55,
R406). -/
def State.releaseScan (s : State) (i : Nat) : State :=
  (s.modScans fun l => l.filter fun x => x.id != i).modFlash fun f => { f with
    pins := f.pins.filter fun p => p.scan != i
    pinWait := f.pinWait.filter fun x => x != i
    pinDelta := f.pinDelta.filter fun e => e.1 != i
    seam := f.seam.map fun e => (e.1, { e.2 with keys := e.2.keys.filter fun x => x != i }) }

/-- The output buffer of scan `i`, which a reset ends, is undefined (R54): free bytes in its tensor-space
destination. -/
def State.undefineOutput (s : State) (i : Nat) : State :=
  match s.scan i with
  | none => s
  | some x =>
    if x.destTensor then
      (s.modTs fun t => { t with
        mem := t.mem.putBytes x.outputAddr (freeBytes (drawOf 61 s.host.draws) x.outputAddr x.outputSize) }).modHost
        fun h => { h with draws := h.draws + 1 }
    else s

/-- True when a reset empties the tensor-space destination of scan `i` (R54). -/
def State.scanHit (s : State) (scope idx i : Nat) : Bool :=
  match s.scan i with
  | none => false
  | some x =>
    let d := x.outputAddr / 2 ^ 47 % 2
    let e := s.extent d (x.outputAddr / 2 ^ 31 % 65536)
    x.destTensor && ((scope == 2 && d == idx) ||
      (scope == 1 && e.copyTier == 1 && 4 * d + e.slice == idx))

/-- Messages of the half of the retransmit store that a face die reset clears are abandoned; their
destinations are due a RESYNC (R338, R387). -/
def State.dropMessages (s : State) (ms : List Msg) : State :=
  s.modFabric fun f => { f with
    store := f.store.filter fun m => !ms.contains m
    resyncDue := f.resyncDue ++ ((ms.map (·.dst)).eraseDups.filter fun d => !f.resyncDue.contains d) }

/-- True when an extent of face die `d` owns dirty tiles in a memory that a reset clears (R25): its copy lies in the
slice of region `idx`, or in T1 or T2 of face die `idx`, and holds data that no home holds. -/
def dirtyIn (scope idx d : Nat) (e : Extent) : Bool :=
  (e.st == 1 || e.st == 2) && (!e.copyDirty.isEmpty || e.homeTier == 0) &&
    (if scope = 1 then e.copyTier == 1 && 4 * d + e.slice == idx else decide (e.copyTier ≤ 2) && d == idx)

/-- The programs without a bench in the scope whose running execute the reset ends: it owns dirty tiles in a memory
that the scope clears (R25), or its forwarded writes `ms` are abandoned (R338). -/
def State.ownersIn (s : State) (scope idx : Nat) (ms : List Msg) : List Nat :=
  let ops := (s.ts.dies.flatMap fun x => (x.2.slots.filter fun e => dirtyIn scope idx x.1 e.2).flatMap
    fun e => e.2.dirtyBy) ++ ms.filterMap (·.exec)
  (s.host.programs.filter fun p => p.2.running.any (ops.contains ·)).map (·.1)

/-- A cut in its first steps is abandoned by any reset, and the next cut is full (R390). -/
def State.abandonCut (s : State) : State :=
  if s.ckpt.phase = 1 then s.modCkpt fun c => { c with
    phase := 0, cutOp := none, holdFns := [], nextFull := true }
  else s

/-- Register accesses held for a wake of region `g` are answered as a region in RESET answers them: all
ones on reads, writes dropped (R31). -/
def State.dropHeld (s : State) (g : Nat) : State :=
  (s.modHost fun h => { h with regReplies := h.regReplies ++ (s.region g).held.map fun a =>
    { offset := a.offset, isWrite := a.isWrite
      value := if a.isWrite then 0 else if a.wide then 0xFFFFFFFFFFFFFFFF#64 else 0xFFFFFFFF#64 } }).modRegion g
    fun x => { x with held := [] }

/-- A triggered scrub pass whose target lies within the scope of a reset ends and sets aborted (R379). -/
def State.abortScrub (s : State) (scope idx : Nat) : State :=
  let m := s.mgmt
  let within := if scope = 1 then decide (m.scrubPass.1 ≤ 2) && m.scrubPass.2 == idx
    else (decide (m.scrubPass.1 ≤ 2) && decide (m.scrubPass.2 < 8) && m.scrubPass.2 / 4 == idx) ||
      (m.scrubPass.1 == 3 && decide (m.scrubPass.2 < 4) && m.scrubPass.2 / 2 == idx)
  if m.scrubBusy && within then s.modMgmt fun x => { x with scrubBusy := false, scrubAborted := true } else s

/-- A reset of region or face die scope begins (R382 steps 1 and 2): the scope is isolated, the
programs with a bench in it stop, and the commands that it ends are kept for step 7. -/
def State.beginReset (s : State) (scope idx : Nat) (e : JEntry) : State :=
  let flag := if s.resets.any fun r => !(scopeWithin r.scope r.idx scope idx) then 2 else 0
  let inner := s.resets.filter fun r => scopeWithin r.scope r.idx scope idx
  let outer := s.resets.filter fun r => !(scopeWithin r.scope r.idx scope idx)
  let keys := s.programsIn scope idx
  let owners := (s.ownersIn scope idx (if scope = 2 then s.fabric.store.filter fun m => m.die == idx else [])).filter
    fun k => !keys.contains k
  let execs := (keys ++ owners).filterMap fun k => (s.prog k).running
  let waiting := (s.host.ops.filter fun o =>
    match o.kind with
    | .execute k _ _ => keys.contains k
    | .scan i => s.scanHit scope idx i
    | k => scope == 2 && needsDie idx k).map (·.id)
  let scans := s.host.ops.filterMap fun o =>
    match o.kind with
    | .scan i => if waiting.contains o.id then some i else none
    | _ => none
  let lostParts := if scope = 2 then
      s.flash.parts.filter fun p => p.die == idx && decide (p.stage < 4)
    else []
  let writes := s.writeOpsOf (voidClosure s.flash.parts.length s.flash.parts lostParts)
  let lostMsgs := if scope = 2 then s.fabric.store.filter fun m => m.die == idx else []
  let cuts := if s.ckpt.phase = 1 then s.ckpt.cutOp.toList else []
  let ids := (execs ++ waiting ++ writes ++ s.flushesOf writes ++ lostMsgs.filterMap (·.op) ++
    cuts).eraseDups
  let s1 := (keys ++ owners).foldl (fun t k => t.stopExecution k true none)
    (scans.foldl (fun t i => (t.undefineOutput i).releaseScan i) (((s.voidParts writes).dropMessages lostMsgs).abortScrub scope idx))
  let r := s1.takeOps ids
  let s2 := (scopeBenches scope idx).foldl (fun t b => t.modBench b Bench.isolated) r.1.abandonCut
  let s3 := (scopeRegions scope idx).foldl (fun t g => (t.dropHeld g).modRegion g fun x =>
    if x.st = .retired then x else { x with st := .reset, entering := 0 }) s2
  let fns := r.2.map fun c => c.1.src.fn
  { s3 with resets := outer.map (fun x => if flag = 2 then
      { x with entry := { x.entry with flags := x.entry.flags ||| 2 } } else x) ++
      [{ scope := scope, idx := idx
         entry := { e with scope := scope, flags := e.flags ||| flag
                           ended := r.2.length }
         posts := (inner.flatMap (·.posts)) ++ r.2
         absorbed := inner.flatMap fun x =>
           { x.entry with flags := x.entry.flags ||| 1 } :: x.absorbed
         fns := (inner.flatMap (·.fns) ++ fns).eraseDups }] }

/-- A reset trigger of region or face die scope (R24): absorbed where a running reset contains it,
otherwise the reset begins. -/
def State.trigger (s : State) (scope idx : Nat) (e : JEntry) : State :=
  if s.resets.any fun r => scopeWithin scope idx r.scope r.idx then
    { s with resets := s.resets.map fun r =>
        if scopeWithin scope idx r.scope r.idx then
          { r with absorbed := r.absorbed ++ [{ e with scope := scope, flags := e.flags ||| 1 }] }
        else r }
  else s.beginReset scope idx e

/-- The address field of a Recovery Journal entry. -/
def addrField (a : Nat) : DWord := BitVec.ofNat 64 a

/-- Bit 2 of the entry flags when the word at `a` holds an error, which only an injection plants (R381). -/
def State.testFlag (s : State) (memory place a : Nat) : Nat := if (s.faultsIn memory place a 1).isEmpty then 0 else 4

/-- An uncorrectable SRAM word of region `r`: a region reset of the region that holds it (R368). -/
def State.sramError (s : State) (r memory place a : Nat) (bench : Nat) : State :=
  s.trigger 1 r (s.stamped (dieOf r)
    { kind := 0x01, memory := memory, region := r, bench := bench, address := addrField a
      flags := s.testFlag memory place a })

/-- An error in the logic of a unit of bench `b` (R21): a region reset. -/
def State.unitError (s : State) (b : Nat) : State :=
  s.trigger 1 (regionOf b) (s.stamped (benchDie b)
    { kind := 0x04, region := regionOf b, bench := b })

/-- A DRAM codeword found uncorrectable when face die `d`, or an engine for it, consumed it (R20). -/
def State.dramConsumed (s : State) (d a : Nat) : State :=
  s.trigger 2 d (s.stamped d
    { kind := 0x02, memory := 0x07, address := addrField a
      detail := stackAt a + 16 * ((s.erasedAt 7 a).getD 0xF), flags := s.testFlag 7 0 a })

/-- Continues with `k` when `n` bytes of T0 of bench `b` at `a` can be read; an uncorrectable word
resets the region (R368). -/
def State.withT0 (s : State) (b a n : Nat) (k : State → State) : State :=
  match s.eccRead 1 b a n with
  | (s1, none) => k s1
  | (s1, some w) => s1.sramError (regionOf b) 0x01 b w b

/-- A write of `f` over `n` bytes at `a` of T0 of bench `b`, then `k`: the words covered in part are
read first (R371). -/
def State.writeT0 (s : State) (b a n : Nat) (f : Mem → Mem) (k : State → State) : State :=
  match s.eccMerge 1 b a n with
  | (s1, none) => k (s1.t0Write b a n f)
  | (s1, some w) => s1.sramError (regionOf b) 0x01 b w b

end Sys2Proof.Machine
end

