-- ==== Sys2Proof/Machine/Tensor.lean ====
section
/-! DEFINITION. The tensor space: addresses, pools, eviction, moves, hoist lists and the access that
every agent makes (R164-R190, R353, R375, R376). -/

namespace Sys2Proof.Machine

/-! ## Pools (R167-R170, R180) -/

/-- DRAM pages of the buddy reserve per face die (R167, R348). -/
def reservePages (gb : Nat) : Nat := 2 * ceilDiv (gb * 1000000000) (4 * 65536)

/-- T2 pool of face die `d` in space tiles (Table 7.3, R377). -/
def State.t2Pool (s : State) (d : Nat) : Nat :=
  1302082 - 65536 - 16384 - reservePages s.ts.reserveGb - (s.die d).framesLost

/-- T3 space of a face die in space tiles (R168). -/
def State.t3Pool (s : State) : Nat := s.ts.t3Gb * 1000000000 / 2 / 65536

/-- True when region `g` takes new T1 copies: neither retired nor waiting to retire (R167). -/
def State.sliceServes (s : State) (g : Nat) : Bool :=
  (s.region g).st != .retired && !(s.region g).retirePending

/-- The region of die `d` whose slice takes the T1 copy of an extent of affinity `aff` (R170). -/
def State.sliceFor (s : State) (d aff : Nat) : Nat :=
  if s.sliceServes (4 * d + aff) then aff
  else ((List.range 4).find? fun r => s.sliceServes (4 * d + r)).getD aff

/-- Space tiles of a tier on die `d`; for T1, of one slice. At read-only end of life T3 gives no room
(R286). -/
def State.poolOf (s : State) (d t slice : Nat) : Nat :=
  match t with
  | 1 => if (s.region (4 * d + slice)).st = .retired then 0 else 8192
  | 2 => s.t2Pool d
  | _ => if s.flash.readOnly then 0 else s.t3Pool

/-- The free floor of a tier (R180). -/
def floorOf (t : Nat) : Nat := match t with | 1 => 256 | 2 => 4096 | _ => 0

/-- True when an extent holds space tiles of tier `t` (of slice `sl` for T1). -/
def Extent.holds (e : Extent) (t sl : Nat) : Bool :=
  (e.st == 1 || e.st == 2) &&
    (e.copyTier == t || e.homeTier == t || (e.st == 2 && e.destTier == t)) &&
    (t != 1 || e.slice == sl)

/-- The sum of the lengths of the extents of die `d` for which `p` holds. -/
def State.tilesWhere (s : State) (d : Nat) (p : Nat → Extent → Bool) : Nat :=
  ((s.die d).slots.filter fun x => p x.1 x.2).foldl (fun n x => n + x.2.length) 0

/-- Space tiles in use in a tier. -/
def State.usedIn (s : State) (d t sl : Nat) : Nat := s.tilesWhere d fun _ e => e.holds t sl

/-- Where a queued move of slot `j` of die `d` leads, 0 when none is queued. -/
def State.queuedTier (s : State) (d j : Nat) : Nat :=
  match (s.die d).queue.find? fun m => m.slot == j with
  | some m => m.tier
  | none => 0

/-- True when an extent is on its way out of tier `t` to a lower one, queued or running. -/
def State.leaving (s : State) (d t j : Nat) (e : Extent) : Bool :=
  e.copyTier == t && ((e.st == 2 && decide (t < e.destTier)) ||
    (e.st == 1 && decide (t < s.queuedTier d j)))

/-- Space tiles of a tier that moves under way or queued will free. -/
def State.freeing (s : State) (d t sl : Nat) : Nat :=
  s.tilesWhere d fun j e => s.leaving d t j e && (t != 1 || e.slice == sl)

/-- Space tiles that function `fn` is charged in tier `t` over both dies (R169). -/
def State.charged (s : State) (fn t : Nat) : Nat :=
  ((List.range 2).map fun d => s.tilesWhere d fun _ e =>
    e.owner == fn && (e.holds t e.slice)).foldl (· + ·) 0

/-- Space tiles of the charge that moves will free. -/
def State.chargeFreeing (s : State) (fn t : Nat) : Nat :=
  ((List.range 2).map fun d => s.tilesWhere d fun j e =>
    e.owner == fn && s.leaving d t j e).foldl (· + ·) 0

/-- The quota of a function in a tier; none is the whole pool (R169). -/
def State.quota (s : State) (fn t : Nat) : Option Nat :=
  match t with
  | 1 => (s.ctl fn).quota1
  | 2 => (s.ctl fn).quota2
  | _ => (s.ctl fn).quota3

/-! ## Eviction (R179-R182) -/

/-- The space tiles that reads wait for (R171). -/
def Extent.wanted (e : Extent) : List Nat := e.waiting.flatMap (·.2.1)

/-- True while a waiter still is there to make its access. -/
def State.stillWaits (s : State) (w : Waiter) : Bool :=
  match w with
  | .unit b _ => ((s.bench b).bind.any fun g => (s.prog g.prog).running.isSome)
  | .line r l => (s.region r).haul.reqs.any fun q => q.line == l
  | .op i => (s.op i).isSome
  | .scan i => (s.scan i).isSome
  | .peer src seq => s.fabric.heldWrites.any fun m => m.src == src && m.seq == seq

/-- True when an extent of tier `t` may be evicted (R180). -/
def State.eligible (s : State) (d t sl j : Nat) (e : Extent) : Bool :=
  e.st == 1 && e.copyTier == t && (t != 1 || e.slice == sl) && !e.pinned &&
    !s.inWindow (extentBase d j) && !(e.waiting.any fun w => s.stillWaits w.1) && s.queuedTier d j == 0

/-- The age of an extent of die `d` in management periods (R179). -/
def State.age (s : State) (d : Nat) (e : Extent) : Nat := s.dieNow d / 1000 - e.lastUse

/-- The oldest of a list of slots, the lower address on equal ages (R180). -/
def State.oldest (s : State) (d : Nat) (l : List (Nat × Extent)) : Option (Nat × Extent) :=
  l.foldl (fun best x =>
    match best with
    | none => some x
    | some b => if s.age d b.2 < s.age d x.2 then some x else some b) none

/-- A move requested (R171, R173): a request already queued keeps its place and takes the better class. A request of
class 2 is a hoist move that has been issued. -/
def State.requestMove (s : State) (d j tier cls : Nat) : State :=
  s.modDie d fun x =>
    if x.queue.any fun m => m.slot == j then
      { x with queue := x.queue.map fun m =>
          if m.slot = j ∧ cls < m.cls then
            { m with tier := tier, cls := cls, hoisted := m.hoisted || cls == 2 } else m }
    else { x with
      queue := x.queue ++ [{ slot := j, tier := tier, cls := cls, order := x.nextOrder, hoisted := cls == 2 }]
      nextOrder := x.nextOrder + 1 }

/-- A clean copy over a valid home dropped without a move (R171). -/
def State.dropCopy (s : State) (d j : Nat) : State :=
  (s.modExtent d j fun e => { e with copyTier := e.homeTier, homeTier := 0 }).modDie d fun x =>
    { x with dropped := x.dropped + 1 }

/-- Room for `need` space tiles in tier `t` of die `d` (R180, R182): extents are evicted to the tier below, oldest
first, until what is free, or will be, covers the need and the floor. An extent with a valid home in the tier below is
written back there, or dropped when it is clean. None when the tier runs out of eligible extents. -/
def State.room : Nat → State → Nat → Nat → Nat → Nat → Nat → Option State
  | 0, _, _, _, _, _, _ => none
  | n + 1, s, d, t, sl, need, cls =>
    if s.usedIn d t sl + need + floorOf t ≤ s.poolOf d t sl + s.freeing d t sl then some s
    else
      match s.oldest d ((s.die d).slots.filter fun x => s.eligible d t sl x.1 x.2) with
      | none => none
      | some (j, e) =>
        if 3 ≤ t then none
        else if e.homeTier = t + 1 then
          (if e.copyDirty = [] then State.room n (s.dropCopy d j) d t sl need cls
          else State.room n (s.requestMove d j (t + 1) cls) d t sl need cls)
        else
          match State.room n s d (t + 1) sl e.length cls with
          | none => none
          | some s1 => State.room n (s1.requestMove d j (t + 1) cls) d t sl need cls

/-- Fuel for `State.room`: every extent can leave three tiers. -/
def State.roomFuel (s : State) : Nat :=
  4 * ((s.die 0).slots.length + (s.die 1).slots.length) + 8

/-- The function's own extents evicted until its charge leaves room under its quota (R169). -/
def State.quotaRoom : Nat → State → Nat → Nat → Nat → Nat → Option State
  | 0, _, _, _, _, _ => none
  | n + 1, s, fn, t, need, cls =>
    match s.quota fn t with
    | none => some s
    | some q =>
      if s.charged fn t + need ≤ q + s.chargeFreeing fn t then some s
      else
        let pick := fun d => s.oldest d ((s.die d).slots.filter fun x =>
          x.2.owner == fn && s.eligible d t x.2.slice x.1 x.2)
        let best := match pick 0, pick 1 with
          | some a, some b => if s.age 0 a.2 < s.age 1 b.2 then some (1, b) else some (0, a)
          | some a, none => some (0, a)
          | none, some b => some (1, b)
          | none, none => none
        match best with
        | none => none
        | some (d, j, e) =>
          if 3 ≤ t then none
          else if e.homeTier = t + 1 ∧ e.copyDirty = [] then State.quotaRoom n (s.dropCopy d j) fn t need cls
          else
            match (if e.homeTier = t + 1 then some s else s.room s.roomFuel d (t + 1) e.slice e.length cls) with
            | none => none
            | some s1 => State.quotaRoom n (s1.requestMove d j (t + 1) cls) fn t need cls

/-- The cause of Table 7.9 for a tier that cannot make room. -/
def exhaustCause (t : Nat) : Nat := t + 1

/-- Room for `need` space tiles of function `fn` in tier `t`, quota first (R169, R182): the state with
the evictions requested, or the cause of Table 7.9. -/
def State.makeRoom (s : State) (d t sl need fn cls : Nat) : Except Nat State :=
  match s.quotaRoom s.roomFuel fn t need cls with
  | none => .error 5
  | some s1 =>
    match s1.room s1.roomFuel d t sl need cls with
    | none => .error (exhaustCause t)
    | some s2 => .ok s2

/-- True when the room is there now, not only once moves have committed. -/
def State.fits (s : State) (d t sl need fn : Nat) : Bool :=
  decide (s.usedIn d t sl + need + floorOf t ≤ s.poolOf d t sl) &&
    match s.quota fn t with
    | none => true
    | some q => decide (s.charged fn t + need ≤ q)

/-- A 0xC2 recorded at its die (Table 7.9). -/
def State.exhaust (s : State) (d cause : Nat) : State :=
  s.modDie d fun x => { x with lastExhaust := cause, exhausted := true }

/-- The longest extent that T1 can hold (R180). -/
def t1Longest : Nat := 7936

/-- A demand move of slot `j` to `tier` (R170): requested with room made for it, or the cause why not. A pinned extent
stays where it is, and the access waits for its pin to be lifted (R181, DEDUCED, notes/assumptions/108.md). -/
def State.demand (s : State) (d j tier : Nat) : Except Nat State :=
  let e := s.extent d j
  if tier = 1 ∧ t1Longest < e.length then .error 6
  else if e.pinned then .ok s
  else if s.queuedTier d j = tier then .ok (s.requestMove d j tier 1)
  else
    match s.makeRoom d tier (s.sliceFor d e.affinity) e.length e.owner 1 with
    | .error c => .error c
    | .ok s1 => .ok (s1.requestMove d j tier 1)

/-! ## Moves (R171-R178) -/

/-- Space tiles that a running move has still to land, in ascending order (R171): a write-back to the
home moves the copy-dirty ones only. -/
def Extent.toLand (e : Extent) : List Nat :=
  (if e.destTier = e.homeTier then e.copyDirty else List.range e.length).filter
    fun t => !e.landed.contains t

/-- The space tile that lands next: one that an access waits for, otherwise the lowest (R171). -/
def Extent.nextTile (e : Extent) : Option Nat :=
  match e.toLand.find? fun t => e.wanted.contains t with
  | some t => some t
  | none => e.toLand.head?

/-- A move that commits (R171): the destination becomes the copy; upwards the source becomes the home. A
pin that waited for the move's end is applied (R181). -/
def Extent.committed (e : Extent) (now : Nat) : Extent :=
  { e with
    st := 1
    homeTier := if e.destTier < e.copyTier then e.copyTier
      else if e.homeTier ≤ e.destTier then 0 else e.homeTier
    copyDirty := if e.destTier < e.copyTier ∨ e.homeTier ≤ e.destTier then [] else e.copyDirty
    dirtyBy := if e.destTier < e.copyTier ∨ e.destTier = e.homeTier then [] else e.dirtyBy
    copyTier := e.destTier, destTier := 0, landed := [], started := false, hoisted := false
    pinned := e.pinned || e.pinOnCommit, pinOnCommit := false
    lastUse := if e.moveClass = 2 then now / 1000 else e.lastUse, moveClass := 0 }

/-- A move abandoned (R176): the extent stays valid in its source tier, the landed tiles are discarded.
-/
def Extent.abandoned (e : Extent) : Extent :=
  { e with st := 1, destTier := 0, landed := [], started := false, moveClass := 0, hoisted := false
           pinned := e.pinned || e.pinOnCommit, pinOnCommit := false }

/-- The move of slot `j` abandoned, its bit set; a demand move is requested again (R176). -/
def State.abandonMove (s : State) (d j : Nat) : State :=
  let e := s.extent d j
  if e.st = 2 then
    let s1 := (s.modExtent d j Extent.abandoned).modDie d fun x => { x with moveAbandoned := true }
    if e.moveClass = 1 ∧ e.destTier < e.copyTier then s1.requestMove d j e.destTier 1 else s1
  else s

/-- Moves running on die `d`. -/
def State.movesActive (s : State) (d : Nat) : Nat :=
  ((s.die d).slots.filter fun x => x.2.st == 2).length

/-- The region whose slice an extent's T1 copy uses or will use, when one of its tiers is T1. -/
def State.moveSlice (s : State) (d : Nat) (e : Extent) (tier : Nat) : Option Nat :=
  if tier = 1 then some (4 * d + s.sliceFor d e.affinity)
  else if e.copyTier = 1 then some (4 * d + e.slice) else none

/-- True when a region can take part in a move or an access: not in RESET. -/
def State.regionReady (s : State) (g : Option Nat) : Bool :=
  match g with
  | none => true
  | some r => (s.region r).st != .reset

/-- A move of slot `j` begins (R171). -/
def State.startMove (s : State) (d : Nat) (m : MoveReq) : State :=
  let e := s.extent d m.slot
  let s1 := s.modDie d fun x => { x with queue := x.queue.filter fun q => q.slot != m.slot }
  if e.st ≠ 1 ∨ e.copyTier = m.tier then s1
  else if m.tier = e.homeTier ∧ e.copyDirty = [] then
    (s1.dropCopy d m.slot).modExtent d m.slot fun y => { y with
      pinned := y.pinned || y.pinOnCommit, pinOnCommit := false }
  else
    s1.modExtent d m.slot fun y => { y with
      st := 2, destTier := m.tier, landed := [], moveClass := m.cls, started := false, hoisted := m.hoisted
      slice := if m.tier = 1 then s.sliceFor d y.affinity else y.slice }

/-- Move requests of die `d` in the order of R173. -/
def State.moveOrder (s : State) (d : Nat) : List MoveReq :=
  sortBy (fun a b => decide (a.cls < b.cls ∨ (a.cls = b.cls ∧ a.order ≤ b.order))) (s.die d).queue

/-- A queued move request withdrawn. -/
def State.dropMove (s : State) (d j : Nat) : State :=
  s.modDie d fun x => { x with queue := x.queue.filter fun q => q.slot != j }

/-- True when a request may move its extent: a pinned one moves only for a Place or Pin that names the tier (R166,
R181). -/
def State.mayMove (s : State) (d : Nat) (m : MoveReq) : Bool :=
  !(s.extent d m.slot).pinned || s.host.ops.any fun o =>
    match o.kind with
    | .place d1 j t _ => d1 == d && j == m.slot && t == m.tier
    | _ => false

/-- The next move of die `d` started, if one can be (R171-R173, R182). A request that no room can be
made for, or that would move a pinned extent, leaves the queue. -/
def State.startNext (s : State) (d : Nat) : List MoveReq → State
  | [] => s
  | m :: rest =>
    let e := s.extent d m.slot
    let sl := s.sliceFor d e.affinity
    if s.mayMove d m = false then (s.dropMove d m.slot).startNext d rest
    else if s.regionReady (s.moveSlice d e m.tier) = false ∨ e.st ≠ 1 then s.startNext d rest
    else if m.tier = e.homeTier ∨ s.fits d m.tier sl e.length e.owner then s.startMove d m
    else if m.tier = 1 ∧ t1Longest < e.length then (s.dropMove d m.slot).startNext d rest
    else
      match s.makeRoom d m.tier sl e.length e.owner m.cls with
      | .ok s1 => s1.startNext d rest
      | .error _ => (s.dropMove d m.slot).startNext d rest

/-- Evictions that hold the free floors of die `d` (R180): best effort, class 3. -/
def State.holdFloors (s : State) (d : Nat) : State :=
  let t1 := (List.range 4).foldl (fun t r => (t.room t.roomFuel d 1 r 0 3).getD t) s
  (t1.room t1.roomFuel d 2 0 0 3).getD t1

/-! ## Waking (R17, R419, R420) -/

/-- A wake source for region `r`: a sleeping region begins to wake, an entry into sleep whose PLL still runs
is aborted (R420). Thermal shutdown, PS3 and PS4 hold every region asleep (R420, R426). -/
def State.wake (s : State) (r : Nat) : State :=
  if (s.region r).st = .sleep ∧ s.power.shutdown = false ∧ s.host.powerState < 3 then
    s.modRegion r fun g => { g with st := .waking, wakeCount := g.wakeCount + 1 }
  else if (s.region r).st = .active ∧ 0 < (s.region r).entering then s.busy r
  else s

/-! ## Hoist lists during an execution (R185, R186) -/

/-- True when a hoist move of the extent of an entry is to be issued (R185): its copy lies below the entry's tier, no
move under way or queued takes it there, and it is not pinned (R181). -/
def State.hoistNeeded (s : State) (e : HoistEntry) : Bool :=
  let x := s.extent (addrDie e.extent) (addrSlot e.extent)
  let q := s.queuedTier (addrDie e.extent) (addrSlot e.extent)
  !x.pinned && ((x.st == 1 && decide (e.tier < x.copyTier)) || (x.st == 2 && decide (e.tier < x.destTier))) &&
    (q == 0 || decide (e.tier < q))

/-- Hoist moves issued for the window of program `k`, in order of distance from the current layer (R185). -/
def State.issueHoist (s : State) (k : Nat) : State :=
  match (s.prog k).running, (s.prog k).hoist with
  | some _, some h =>
    ((h.window (s.prog k).hoistLayer).flatMap fun l => h.entries.filter fun e => e.layer == l).foldl
      (fun t e => if t.hoistNeeded e then t.requestMove (addrDie e.extent) (addrSlot e.extent) e.tier 2 else t) s
  | _, _ => s

/-- Hoist moves issued for every running program, for what has changed since its window was last looked at. -/
def State.issueHoists (s : State) : State := s.host.programs.foldl (fun t e => t.issueHoist e.1) s

/-- The layer that an access to an extent sets (R185): of the layers other than the current one for which it is listed,
the first that follows the current one; none when there is no such layer. -/
def HoistList.layerFor (h : HoistList) (c : Option Nat) (base : Nat) : Option Nat :=
  let key := fun l => match c with
    | none => l
    | some c => (l + h.layers - c) % h.layers
  (((h.entries.filter fun e => e.extent == base).map (·.layer)).filter fun l => c != some l).foldl
    (fun m l => match m with
      | none => some l
      | some x => if key l < key x then some l else some x) none

/-- The layers that the current layer moves past on its way from `c` to `l` (R186): those from `c` up to `l`, over the
last layer with wrap; `c` alone on a way back without wrap. -/
def HoistList.passed (h : HoistList) (c : Option Nat) (l : Nat) : List Nat :=
  match c with
  | none => List.range l
  | some c =>
    if c ≤ l then (List.range (l - c)).map fun i => c + i
    else if h.wrap then (List.range (l + h.layers - c)).map fun i => (c + i) % h.layers
    else [c]

/-- What the layer `c`, left behind, alone listed with release_after becomes the oldest (R186). -/
def State.releaseLayer (s : State) (h : HoistList) (c : Nat) : State :=
  let left := h.entries.filter fun e => e.layer == c && e.releaseAfter &&
    !(h.entries.any fun o => o.extent == e.extent && o.layer != c)
  left.foldl (fun t e => t.modExtent (addrDie e.extent) (addrSlot e.extent)
    fun x => { x with lastUse := 0 }) s

/-- A bench of program `k` accesses the extent at `base`: the current layer follows (R185), the layers
left behind are released (R186), and the window is fetched. -/
def State.hoistTouch (s : State) (k base : Nat) : State :=
  let p := s.prog k
  match p.running, p.hoist with
  | some _, some h =>
    match h.layerFor p.hoistLayer base with
    | none => s
    | some l =>
      ((h.passed p.hoistLayer l).foldl (fun t c => t.releaseLayer h c)
        (s.modProg k fun p => { p with hoistLayer := some l })).issueHoist k
  | _, _ => s

/-! ## Accesses (R165, R170, R175, R353) -/

/-- The answer to an access. -/
inductive Acc where
  | ok
  /-- Held back (R31, R175, R204, R353): to be tried again. -/
  | wait
  /-- Crosses an extent's end or falls in a FREE slot (R165). -/
  | bad
  /-- Another function's unshared extent. -/
  | denied
  | lost
  /-- A poisoned space tile or codeword (R23, R178). -/
  | poisoned
  /-- No room for the demand move (R182), with its cause. -/
  | exhausted (cause : Nat)
deriving DecidableEq, Repr

/-- The space tiles that `n` bytes at `a` touch. -/
def tilesOf (a n : Nat) : List Nat :=
  (List.range (addrTile (a + n - 1) - addrTile a + 1)).map fun i => addrTile a + i

/-- True when `n` bytes at `a` cover every byte of space tile `t` of their extent. -/
def coversTile (a n t : Nat) : Bool :=
  decide (a % 2 ^ 31 ≤ t * 65536) && decide ((t + 1) * 65536 ≤ a % 2 ^ 31 + n)

/-- True when a space tile of a MOVING extent can be read from its destination (R175). -/
def Extent.readable (e : Extent) (t : Nat) : Bool :=
  e.landed.contains t || (e.destTier == e.homeTier && !e.copyDirty.contains t)

/-- The tier that serves a space tile now. -/
def Extent.servedFrom (e : Extent) (t : Nat) : Nat :=
  if e.st = 2 ∧ e.readable t then e.destTier else e.copyTier

/-- The memory code of Table 15.8 of a tier: 2 T1, 7 DRAM, 0 flash. -/
def tierMemory (t : Nat) : Nat := if t = 1 then 2 else if t = 2 then 7 else 0

/-- True when a hoist move of slot `j` has been issued and has not ended (R190). -/
def State.hoistIssued (s : State) (d j : Nat) : Bool :=
  (s.extent d j).hoisted || (s.die d).queue.any fun m => m.slot == j && m.hoisted

/-- The access of waiter `w` to slot `j` waits, for the space tiles `ts` when it is a read (R171, R180); `late` tells
that a hoist move of the extent had been issued, and the access is counted once (FD_TS_HOIST_LATE). -/
def State.wants (s : State) (d j : Nat) (w : Waiter) (ts : List Nat) (late : Bool) : State :=
  let old := (s.extent d j).waiting.find? fun x => x.1 == w
  let since := (old.bind (·.2.2)).or (if (s.extent d j).st = 2 then some s.now else none)
  let s1 := s.modExtent d j fun x => { x with
    waiting := (x.waiting.filter fun y => y.1 != w && s.stillWaits y.1) ++ [(w, ts, since)] }
  if late && old.isNone then s1.modDie d fun x => { x with hoistLate := x.hoistLate + 1 } else s1

/-- The access of waiter `w` to slot `j` waits no longer: its wait for a moving extent reaches the monitors, in ns
(R175, source 0x08 of Table 18.2). -/
def State.waitEnds (s : State) (d j : Nat) (w : Waiter) : State :=
  match (s.extent d j).waiting.find? fun x => x.1 == w with
  | none => s
  | some x =>
    let t := s.modExtent d j fun x => { x with waiting := x.waiting.filter fun y => y.1 != w }
    match x.2.2 with
    | none => t
    | some a => t.observe 0x08 d (nsSince s.now a : Nat)

/-- Pages of the shadow space of die `d` that hold a tile. -/
def State.shadowPages (s : State) (d : Nat) : Nat := (s.ckpt.shadow.filter fun x => x.1 == d).length

/-- The shadow pages and the waiting writes of slot `j` of die `d` forgotten with its extent. -/
def State.dropShadow (s : State) (d j : Nat) : State :=
  (s.modDie d fun x => { x with touched := x.touched.filter fun w => w.slot != j }).modCkpt fun c => { c with
    shadow := c.shadow.filter fun x => !(x.1 == d && x.2.1 == j) }

/-- The first-touch copies of write-protected space tiles begin (R353); with the shadow space full the
first exhaustion of a cut raises event 0x42 (R355). -/
def State.firstTouch (s : State) (d j : Nat) (ts : List Nat) : State :=
  ts.foldl (fun t tile =>
    let x := t.die d
    let old := x.touched.find? fun w => w.slot == j && w.tile == tile
    if old.any (·.copying) then t
    else
      let room := decide (t.shadowPages d + (x.touched.filter (·.copying)).length < 16384)
      let w : Touch := { slot := j, tile := tile, since := (old.map (·.since)).getD t.now, copying := room }
      let t1 := t.modDie d fun y => { y with
        touched := (y.touched.filter fun v => !(v.slot == j && v.tile == tile)) ++ [w] }
      if room || t.ckpt.shadowRaised then t1
      else (t1.modCkpt fun c => { c with shadowRaised := true }).raise 0x42 0xC5) s

/-- An access withdraws an eviction of its extent of which no space tile has left yet (R177); Place moves
stay. -/
def State.withdraw (s : State) (d j : Nat) : State :=
  let e := s.extent d j
  if e.st = 2 ∧ e.started = false ∧ e.copyTier < e.destTier ∧ e.moveClass ≠ 4 then
    s.modExtent d j Extent.abandoned
  else if e.st = 1 then
    s.modDie d fun x => { x with
      queue := x.queue.filter fun m => !(m.slot == j && decide (e.copyTier < m.tier) && m.cls != 4) }
  else s

/-- True when space tile `t` is poisoned by codewords of the poison table that its T2 copy holds: an access to
it follows R23 and R376. -/
def State.dramPoisoned (s : State) (d j t : Nat) : Bool :=
  (s.extent d j).servedFrom t == 2 && (s.die d).poison.any fun w =>
    decide (tileAddr d j t ≤ 256 * w) && decide (256 * w < tileAddr d j t + 65536)

/-- What an access of function `fn` to `n` bytes at `a` meets: `load` for an array LOAD, which T1 alone serves;
`wr` for a write. -/
def State.tsReach (s : State) (fn a n : Nat) (load wr : Bool) : Acc × State :=
  let d := addrDie a
  let j := addrSlot a
  let x := s.extent d j
  if (s.die d).held ∧ a + n ≤ 2 ^ 48 then (.lost, s)
  else if 2 ^ 48 < a + n ∨ x.st = 0 ∨ x.length * 65536 < a % 2 ^ 31 + n then (.bad, s)
  else if x.owner ≠ fn ∧ x.shared = false then (.denied, s)
  else if x.st = 3 then (.lost, s)
  else
    let ts := tilesOf a n
    let s0 := (s.withdraw d j).modExtent d j fun x => { x with lastUse := s.dieNow d / 1000 }
    let e := s0.extent d j
    if ts.any fun t => e.poison.contains t && !(wr && coversTile a n t) && !s.dramPoisoned d j t then (.poisoned, s0)
    else if e.st = 1 then
      let need := if load then decide (e.copyTier ≠ 1) else decide (e.copyTier = 3)
      if need then
        match s0.demand d j (if load then 1 else 2) with
        | .error c => (.exhausted c, s0.exhaust d c)
        | .ok s1 => (.wait, s1)
      else
        let g := 4 * d + e.slice
        if e.copyTier = 1 ∧ (s.region g).st ≠ .active then (.wait, s0.wake g)
        else if wr && ts.any fun t => e.writeProtect.contains t then
          (.wait, s0.firstTouch d j (ts.filter fun t => e.writeProtect.contains t))
        else (.ok, if e.copyTier = 1 then s0.busy g else s0)
    else if wr then (.wait, s0)
    else if (if load then e.destTier == 1 else decide (e.destTier ≤ 2)) && ts.all e.readable then
      if e.destTier = 1 ∧ (s.region (4 * d + e.slice)).st ≠ .active then (.wait, s0.wake (4 * d + e.slice))
      else (.ok, s0)
    else (.wait, s0)

/-- An access of waiter `w` for function `fn` to `n` bytes at `a`; while it is held back it is entered among those that
wait for the extent. -/
def State.tsAccess (s : State) (w : Waiter) (fn a n : Nat) (load wr : Bool) : Acc × State :=
  match s.tsReach fn a n load wr with
  | (.wait, t) =>
    (.wait, t.wants (addrDie a) (addrSlot a) w (if wr then [] else tilesOf a n)
      (s.hoistIssued (addrDie a) (addrSlot a)))
  | (r, t) => (r, t.waitEnds (addrDie a) (addrSlot a) w)

/-- Who makes an access: the bench (0xFF for none), the face die at whose scope uncorrectable DRAM
data resets, none for a host or forwarded access, which selects no reset (R20, R23), and the waiter that it is while it
is held back. -/
structure Who where
  bench : Nat := 0xFF
  die : Option Nat := none
  waiter : Waiter
deriving DecidableEq, Repr

/-- The execute that `who` works for, by operation number: the one that runs on its bench. -/
def State.execOf (s : State) (who : Who) : Option Nat := (s.bench who.bench).bind.bind fun g => (s.prog g.prog).running

/-- A DRAM row repaired; when no spare row is left, the page frame that holds it leaves the T2 pool (R377,
R470). -/
def State.repairDram (s : State) (stack cause detail : Nat) : State :=
  let used := tget 0 s.mgmt.dramRepairs stack
  let s1 := if used < Config.dramSpareRows then
      s.modMgmt fun m => { m with dramRepairs := tset m.dramRepairs stack (used + 1) }
    else s.modDie (stack / 2) fun x => { x with framesLost := x.framesLost + 1 }
  s1.repair 0x0A cause stack detail

/-- A codeword of `stack` found uncorrectable and not consumed by a unit that resets (R23, R376, R377): entered
in the poison table of face die `d`, its space tile, if an extent holds it in T2, marked poisoned, a Recovery
Journal entry of kind 0x03 made, and its row repaired. -/
def State.poisonFound (s : State) (d stack a : Nat) : State :=
  if (s.die d).poison.contains (a / 256) then s
  else
    let s1 := s.modDie d fun x =>
      if 4096 ≤ x.poison.length then x else { x with poison := x.poison ++ [a / 256] }
    let s2 := if a < 2 ^ 48 ∧ (s.extent d (addrSlot a)).servedFrom (addrTile a) = 2 then
        s1.modExtent d (addrSlot a) fun e =>
          { e with poison := if e.poison.contains (addrTile a) then e.poison else e.poison ++ [addrTile a] }
      else s1
    (s2.journal (s2.stamped d { kind := 0x03, memory := 0x07, address := addrField a
                                detail := stack + 16 * ((s.erasedOf stack).getD 0xF) })).repairDram stack 0x03 (a / 8192 * 8192)

/-- The first poison-table codeword among `n` bytes at `a` that a T2 copy serves (R376). -/
def State.poisonedCodeword (s : State) (a n : Nat) (partly : Bool) : Option Nat :=
  let d := addrDie a
  let e := s.extent d (addrSlot a)
  ((s.die d).poison.find? fun w =>
    decide (a < 256 * w + 256) && decide (256 * w < a + n) && e.servedFrom (addrTile (256 * w)) == 2 &&
      (!partly || decide (256 * w < a) || decide (a + n < 256 * w + 256))).map (256 * ·)

/-- What a consumer does with an uncorrectable word at `w` of the tier `t`. -/
def State.tsError (s : State) (who : Who) (t w : Nat) (fail : Acc → State → State) : State :=
  if t = 1 then
    s.sramError (4 * addrDie w + (s.extent (addrDie w) (addrSlot w)).slice) 0x02 0 w who.bench
  else
    match who.die with
    | some d => s.dramConsumed d w
    | none => fail .poisoned (s.poisonFound (addrDie w) (stackAt w) w)

/-- `n` bytes at `a` read by `who` for function `fn`, then `k`; otherwise `fail` with what holds the
access back or ends it. -/
def State.tsRead (s : State) (who : Who) (fn a n : Nat) (load : Bool) (fail : Acc → State → State)
    (k : State → State) : State :=
  match s.tsAccess who.waiter fn a n load false with
  | (.ok, s1) =>
    let t := (s1.extent (addrDie a) (addrSlot a)).servedFrom (addrTile a)
    match s1.poisonedCodeword a n false with
    | some w => s1.tsError who 2 w fail
    | none =>
      match s1.eccRead (tierMemory t) 0 a n with
      | (s2, none) => k s2
      | (s2, some w) => s2.tsError who t w fail
  | (r, s1) => fail r s1

/-- A write of `f` over `n` bytes at `a` by `who` that has been allowed: contents, copy-dirty and protection
dirty bits (R183), the execute that owns the dirty tiles (R25), poison cleared where whole tiles or codewords are
written (R178, R376). -/
def State.tsPut (s : State) (who : Who) (a n : Nat) (f : Mem → Mem) : State :=
  let d := addrDie a
  let j := addrSlot a
  let t := (s.extent d j).servedFrom (addrTile a)
  let ts := tilesOf a n
  let r := (s.eccFresh (tierMemory t) 0 a n).inject (tierMemory t) 0 a n s.ts.mem (f s.ts.mem)
  let s1 := r.1.modTs fun x => { x with mem := r.2 }
  let s2 := s1.modExtent d j fun e => { e with
    copyDirty := if e.homeTier = 0 then e.copyDirty else ts.foldl (fun l t => insSorted t l) e.copyDirty
    pageDirty := ts.foldl (fun l t => insSorted t l) e.pageDirty
    dirtyBy := (s.execOf who).elim e.dirtyBy fun i => insSorted i e.dirtyBy
    poison := e.poison.filter fun t => !coversTile a n t }
  s2.modDie d fun x => { x with
    poison := x.poison.filter fun w => !(decide (a ≤ 256 * w) && decide (256 * w + 256 ≤ a + n)) }

/-- A write of `f` over `n` bytes at `a` by `who` for function `fn`, then `k`. Codewords that it covers
only in part are read first, and its writer consumes them (R371, R375). -/
def State.tsWrite (s : State) (who : Who) (fn a n : Nat) (f : Mem → Mem) (fail : Acc → State → State)
    (k : State → State) : State :=
  match s.tsAccess who.waiter fn a n false true with
  | (.ok, s1) =>
    let t := (s1.extent (addrDie a) (addrSlot a)).servedFrom (addrTile a)
    match s1.poisonedCodeword a n true with
    | some w => s1.tsError who 2 w fail
    | none =>
      match s1.eccMerge (tierMemory t) 0 a n with
      | (s2, none) => k (s2.tsPut who a n f)
      | (s2, some w) => s2.tsError who t w fail
  | (r, s1) => fail r s1

/-! ## Creation and freeing (R166, R188) -/

/-- The lowest FREE slot of die `d`. -/
def State.freeSlot (s : State) (d : Nat) : Option Nat :=
  firstIdx (fun j => (s.extent d j).st == 0) (Nat.min 65536 ((s.die d).slots.length + 1))

/-- Slots of die `d` that are not FREE. -/
def State.slotsUsed (s : State) (d : Nat) : Nat :=
  ((s.die d).slots.filter fun x => x.2.st != 0).length

/-- Every byte of an extent zeroed, and what the codes held about it forgotten. -/
def State.zeroExtent (s : State) (d j len : Nat) : State :=
  let a := extentBase d j
  let s1 := s.modTs fun t => { t with mem := t.mem.clear a (len * 65536) }
  let s2 := (s1.eccFresh 2 0 a (len * 65536)).eccFresh 7 0 a (len * 65536)
  s2.modDie d fun x => { x with poison := x.poison.filter fun w =>
    !(decide (a ≤ 256 * w) && decide (256 * w < a + len * 65536)) }

/-- Slot `j` of die `d` freed: a move of it is abandoned, which is none of those that Table 7.9 counts, its space tiles
return to their pools and its peer window goes with it (R166). -/
def State.freeExtent (s : State) (d j : Nat) : State :=
  let e := s.extent d j
  let s1 := (s.zeroExtent d j e.length).modTs fun t => { t with
    windows := t.windows.filter fun w => !(w.die == d && w.slot == j) }
  (s1.dropShadow d j).modDie d fun x => { x with
    slots := tdel x.slots j, queue := x.queue.filter fun m => m.slot != j }

/-- Slot `j` of die `d` made LOST (R188): it keeps its slot and length and holds nothing. -/
def State.loseExtent (s : State) (d j : Nat) : State :=
  let e := s.extent d j
  ((s.zeroExtent d j e.length).dropShadow d j).modDie d fun x => { x with
    slots := tset x.slots j { st := 3, length := e.length, owner := e.owner, shared := e.shared
                              affinity := e.affinity, lastUse := e.lastUse }
    queue := x.queue.filter fun m => m.slot != j }

end Sys2Proof.Machine
end

