-- ==== Sys2Proof/Machine/Flash.lean ====
section
/-! DEFINITION. The flash translation layer's operations: blocks, stripes, the map, the journal and the
write buffer (R256-R289, R301-R303, R469). -/

namespace Sys2Proof.Machine

/-! ## Geometry (R256, R257) -/

/-- Blocks of the checkpoint region in each plane: 1 TB of pSLC spread over every die. -/
def State.ckptPerPlane (s : State) : Nat := if s.mfg.cap128 then 117 else 233
/-- Blocks of the metadata region in each plane. -/
def metaPerPlane : Nat := 8
/-- Pool blocks of a plane. -/
def State.poolPerPlane (s : State) : Nat := 4096 - s.ckptPerPlane - metaPerPlane
/-- Physical blocks of the module. -/
def State.blockCount (s : State) : Nat := 32 * s.diesPerStack * 4 * 4096
/-- The stack of a physical block index. -/
def State.blockStack (s : State) (b : Nat) : Nat := b / (s.diesPerStack * 16384)
/-- The die, within its stack, of a physical block index. -/
def State.blockDie (s : State) (b : Nat) : Nat := b / 16384 % s.diesPerStack
/-- The physical block of a physical page address (page = block × 1,024 + page of the block). -/
def pageBlock (ppa : Nat) : Nat := ppa / 1024
/-- The stack of a physical page. -/
def State.pageStack (s : State) (ppa : Nat) : Nat := s.blockStack (pageBlock ppa)
/-- The record of a block; an unlisted block has never been used. -/
def State.blk (s : State) (b : Nat) : Blk := tget {} s.flash.blocks b
/-- The state with the record of block `b` changed by `f`. -/
def State.modBlk (s : State) (b : Nat) (f : Blk → Blk) : State :=
  s.modFlash fun x => { x with blocks := tmod {} x.blocks b f }

/-- The role of a block in log 0xC0 (Table 11.6). -/
def State.roleOf (s : State) (b : Nat) : Nat :=
  if (s.blk b).role = 3 then 3
  else if b % 4096 < s.ckptPerPlane then 1
  else if b % 4096 < s.ckptPerPlane + metaPerPlane then 2 else 0

/-- The state field of a block in log 0xC0: 3 when bad at manufacture. -/
def State.blockState (s : State) (b : Nat) : Nat :=
  if s.mfg.badBlocks.contains b then 3 else (s.blk b).st

/-- Wear in units of 1/150,000: q / 3,000 + s / 50,000 (R258). -/
def Blk.wear (b : Blk) : Nat := 50 * b.qlcErases + 3 * b.pslcErases

/-- Pages of a block as it is programmed now. -/
def Blk.pages (b : Blk) : Nat := if b.qlc then 1024 else 256

/-- True when a die of a stack is in service. -/
def State.dieServes (s : State) (k d : Nat) : Bool :=
  (s.stack k).st != 2 && !(s.stack k).dieRetired.contains d

/-- Dies in service. -/
def State.diesInService (s : State) : Nat :=
  ((List.range 32).map fun k =>
    ((List.range s.diesPerStack).filter fun d => s.dieServes k d).length).foldl (· + ·) 0

/-- Pool blocks in service. -/
def State.poolBlocks (s : State) : Nat :=
  s.diesInService * 4 * s.poolPerPlane - s.mfg.badBlocks.length -
    (s.flash.blocks.filter fun e => e.2.st == 2 || e.2.role == 3).length

/-- Pool blocks in use. -/
def State.poolInUse (s : State) : Nat :=
  (s.flash.blocks.filter fun e => e.2.st == 0 && s.roleOf e.1 == 0).length

/-- Free pool blocks. -/
def State.poolFree (s : State) : Nat := s.poolBlocks - s.poolInUse

/-- Spare blocks at manufacture (Table 11.2, in blocks of 16 MiB). -/
def State.spareAtManufacture (s : State) : Nat := if s.mfg.cap128 then 1075267 else 418424

/-- Blocks lost in service: retired blocks, dies and stacks (R284). -/
def State.blocksLost (s : State) : Nat :=
  s.flash.grownBad + (32 * s.diesPerStack - s.diesInService) * 16384

/-- Pool blocks in service that have been used. -/
def State.wornBlocks (s : State) : List (Nat × Blk) :=
  s.flash.blocks.filter fun e => s.roleOf e.1 == 0 && e.2.st != 2 && s.dieServes (s.blockStack e.1) (s.blockDie e.1)

/-- Pool mean wear in units of 1/150,000. -/
def State.wearMean (s : State) : Nat :=
  (s.wornBlocks.foldl (fun n e => n + e.2.wear) 0) / Nat.max 1 s.poolBlocks

/-- Percentage Used (R284). -/
def State.percentUsed (s : State) : Nat := capNat 255 (s.wearMean * 100 / 150000)

/-! ## Early-warning events (R283, R285) -/

/-- An early-warning event of Table 11.7: entered in log 0xC0, raised when its bit is enabled. -/
def State.flashEvent (s : State) (code stack die : Nat) : State :=
  let s1 := s.modFlash fun f => { f with
    events := ((code, stack, die, f.jseq) :: f.events).take 16 }
  if bitOf s.host.earlyWarning.toNat (code - 1) then s1.raise code 0xC0 else s1

/-- Read-only end of life entered (R286): event 0x08, once. -/
def State.endOfLife (s : State) : State :=
  if s.flash.readOnly then s
  else (s.modFlash fun f => { f with readOnly := true }).flashEvent 0x08 0xFF 0xFF

/-- The free pool and spare percentages set again after a change of the blocks (R284, R285); with no spare left the module
enters read-only end of life (R286). -/
def State.recount (s : State) : State :=
  let spare := 100 * (s.spareAtManufacture - s.blocksLost) / s.spareAtManufacture
  let free := 100 * s.poolFree / Nat.max 1 s.poolBlocks
  let s1 := s.modFlash fun f => { f with
    freePct := free, sparePct := spare, throttling := f.throttling && decide (free < 2)
    credit := if free < 2 then f.credit else 0 }
  let warn := bitsOf s.host.earlyWarning.toNat 22 16
  let s2 := if warn ≤ s.flash.sparePct ∧ spare < warn then s1.flashEvent 0x01 0xFF 0xFF else s1
  if s.spareAtManufacture ≤ s.blocksLost then s2.endOfLife else s2

/-- Event 0x02 when Percentage Used has crossed a multiple of wear_step since it was last looked at (R285). -/
def State.wearCheck (s : State) : State :=
  let step := Nat.max 1 (bitsOf s.host.earlyWarning.toNat 28 24)
  let used := s.percentUsed
  let s1 := s.modFlash fun f => { f with usedPct := used }
  if s.flash.usedPct / step < used / step then s1.flashEvent 0x02 0xFF 0xFF else s1

/-! ## Program units (R256-R260, R267) -/

/-- The first block index of plane `p` of die `d` of stack `k`. -/
def State.planeBase (s : State) (k d p : Nat) : Nat := ((k * s.diesPerStack + d) * 4 + p) * 4096

/-- The block of least wear in a list. -/
def leastWorn (l : List (Nat × Blk)) : Option Nat :=
  (l.foldl (fun (m : Option (Nat × Blk)) e =>
    match m with
    | none => some e
    | some x => if e.2.wear < x.2.wear then some e else some x) none).map (·.1)

/-- The free pool block of lowest wear of a plane (R258, R312): one never used, if there is one. -/
def State.planeFree (s : State) (k d p : Nat) : Option Nat :=
  let first := s.planeBase k d p + s.ckptPerPlane + metaPerPlane
  let fresh := ((List.range (Nat.min s.poolPerPlane
      (s.flash.blocks.length + s.mfg.badBlocks.length + 1))).map fun i => first + i).find? fun b =>
    !thas s.flash.blocks b && !s.mfg.badBlocks.contains b
  match fresh with
  | some b => some b
  | none => leastWorn (s.flash.blocks.filter fun e => decide (first ≤ e.1) &&
      decide (e.1 < first + s.poolPerPlane) && e.2.st == 1 && !e.2.erasing && !s.mfg.badBlocks.contains e.1)

/-- The blocks that a program unit of a die would take: the free one of lowest wear on each of its four planes. -/
def State.dieFree (s : State) (k d : Nat) : Option (List Nat) :=
  let l := (List.range 4).filterMap (s.planeFree k d)
  if l.length = 4 then some l else none

/-- The wear of a list of blocks together. -/
def State.wearOf (s : State) (l : List Nat) : Nat := l.foldl (fun n b => n + (s.blk b).wear) 0

/-- The free blocks of lowest wear on stack `k`, one on every plane of a die in service (R258). -/
def State.stackFree (s : State) (k : Nat) : Option (List Nat) :=
  ((((List.range s.diesPerStack).filter fun d => s.dieServes k d).filterMap (s.dieFree k))).foldl
    (fun (m : Option (List Nat)) l =>
      match m with
      | none => some l
      | some x => if s.wearOf l < s.wearOf x then some l else some x) none

/-- Blocks of the write cache (Table 11.2), at 4 MiB each, at most. -/
def State.cacheLimit (s : State) : Nat := if s.mfg.cap128 then 122070 else 61035

/-- Pool blocks that serve as write cache. -/
def State.cacheBlocks (s : State) : Nat :=
  (s.flash.blocks.filter fun e => e.2.st == 0 && !e.2.qlc && s.roleOf e.1 == 0).length

/-- The blocks open on stack `k` as pSLC or QLC. -/
def State.openOn (s : State) (k : Nat) (qlc : Bool) : List Nat :=
  tget [] (if qlc then s.flash.openQlc else s.flash.openPslc) k

/-- The blocks open on stack `k` replaced; none for a closed one. -/
def State.setOpen (s : State) (k : Nat) (qlc : Bool) (bs : List Nat) : State :=
  s.modFlash fun f =>
    if qlc then { f with openQlc := tset f.openQlc k bs, fillQlc := tset f.fillQlc k 0 }
    else { f with openPslc := tset f.openPslc k bs }

/-- Open blocks on stack `k`: those open now while their die serves, otherwise the free ones of lowest wear. The write
cache takes no block beyond its figure (R257). -/
def State.openBlocks (s : State) (k : Nat) (qlc : Bool) : Option (State × List Nat) :=
  let cur := s.openOn k qlc
  if cur ≠ [] ∧ (cur.all fun b => s.dieServes k (s.blockDie b)) = true then some (s, cur)
  else if qlc = false ∧ s.cacheLimit < s.cacheBlocks + 4 then none
  else
    match s.stackFree k with
    | none => none
    | some bs =>
      let s1 := bs.foldl (fun t b => t.modBlk b fun y => { y with
        st := 0, qlc := qlc, nextPage := 0, written := s.flash.jseq }) s
      some ((s1.setOpen k qlc bs).recount, bs)

/-- Stacks in service, in ascending order. -/
def State.stacksUp (s : State) : List Nat :=
  (List.range 32).filter fun k => (List.range s.diesPerStack).any fun d => s.dieServes k d

/-- The stack whose parity page a new stripe takes, which is not stack `k`: it rotates from stripe to stripe. -/
def State.parityFor (s : State) (id k : Nat) : Nat :=
  match s.stacksUp.filter fun x => x != k with
  | [] => 0
  | l => l.getD (id % l.length) 0

/-- Stacks that can still take a data page of a stripe. -/
def State.stripeRoom (s : State) (x : Stripe) : List Nat :=
  s.stacksUp.filter fun k => k != x.parityStack && !(x.members.any fun p => s.pageStack p == k)

/-- A programmed page joins the oldest open stripe that has none on its stack, or a new one (R267). -/
def State.joinStripe (s : State) (ppa : Nat) : State × Nat :=
  let k := s.pageStack ppa
  let x := match s.flash.stripes.find? fun x => !x.closed && (s.stripeRoom x).contains k with
    | some x => x
    | none => { id := s.flash.nextStripe, parityStack := s.parityFor s.flash.nextStripe k }
  let y := { x with members := x.members ++ [ppa] }
  let z := { y with closed := (s.stripeRoom y).isEmpty }
  (s.modFlash fun f => { f with
    stripes := if f.stripes.any fun w => w.id == x.id then f.stripes.map fun w => if w.id = x.id then z else w
      else f.stripes ++ [z]
    nextStripe := Nat.max f.nextStripe (x.id + 1) }, x.id)

/-- The stacks in the order in which the next program takes one: those that the oldest open stripe lacks, then the
others. None while no stripe can be kept. -/
def State.programOrder (s : State) : List Nat :=
  if s.stacksUp.length < 2 then []
  else
    match s.flash.stripes.find? fun x => !x.closed && !(s.stripeRoom x).isEmpty with
    | some x => s.stripeRoom x ++ s.stacksUp.filter fun k => !(s.stripeRoom x).contains k
    | none => s.stacksUp

/-- Program passes counted on stack `k` (SM_MEDIA_PROGRAMS). -/
def State.countPasses (s : State) (k n : Nat) : State :=
  s.modStack k fun z => { z with programs := z.programs + BitVec.ofNat 64 n }

/-- A pSLC program unit on stack `k`: the next wordline of its open blocks, once (R256, R259). Gives its four pages. -/
def State.takeUnit (s : State) (k : Nat) : Option (State × List Nat) :=
  match s.openBlocks k false with
  | none => none
  | some (s1, bs) =>
    let w := (s1.blk (bs.headD 0)).nextPage
    let s2 := bs.foldl (fun t b => t.modBlk b fun y => { y with nextPage := w + 1 }) s1
    some (((if 256 ≤ w + 1 then s2.setOpen k false [] else s2).countPasses k 1), bs.map fun b => 1024 * b + w)

/-- Contents put on a page. -/
def State.putPage (s : State) (ppa : Nat) (data : Mem) : State :=
  s.modFlash fun f => { f with media := tset f.media ppa data }

/-- Up to four IUs programmed in one pSLC unit on the first stack of `ks` that has room: each takes a page and joins a
stripe (R262, R267). Gives page and stripe of each, in order. -/
def State.programUnit (s : State) (ks : List Nat) (ds : List Mem) : Option (State × List (Nat × Nat)) :=
  match ks.findSome? s.takeUnit with
  | none => none
  | some (s1, ps) =>
    let s2 := s1.modFlash fun f => { f with mediaIu := f.mediaIu + BitVec.ofNat 64 ds.length }
    some ((ps.zip ds).foldl (fun r e =>
      let j := (r.1.putPage e.1 e.2).joinStripe e.1
      (j.1, r.2 ++ [(e.1, j.2)])) (s2, []))

/-- True when QLC wordline `w` of a block has settled (R260): fine(w + 1) has completed. -/
def Blk.settled (b : Blk) (w : Nat) : Bool := decide (4 * (w + 3) ≤ b.nextPage) || b.nextPage == 1024

/-- True when a page may be read back, served or taken as a source: pSLC, or on a settled wordline (R260). -/
def State.pageSettled (s : State) (ppa : Nat) : Bool :=
  let b := s.blk (pageBlock ppa)
  !b.qlc || b.settled (ppa % 1024 / 4)

/-- Passes that programming QLC wordline `w` of a block in order takes: coarse(w), then fine(w − 1), and fine(255) after
it with the last (R260). -/
def qlcPasses (w : Nat) : Nat := 1 + b2n (decide (0 < w)) + b2n (w == 255)

/-- The next QLC wordline of the blocks open on stack `k` programmed, with the pages gathered for it. -/
def State.programWordline (s : State) (k : Nat) : State :=
  let bs := s.openOn k true
  let w := (s.blk (bs.headD 0)).nextPage / 4
  let s1 := bs.foldl (fun t b => t.modBlk b fun y => { y with nextPage := 4 * (w + 1) }) s
  (s1.setOpen k true (if 255 ≤ w then [] else bs)).countPasses k (qlcPasses w)

/-- One IU copied to QLC: it takes a page of the next wordline on the first stack that has room, and the wordline is
programmed once its 16 pages are gathered (R256, R260). Gives page and stripe. -/
def State.copyQlc (s : State) (data : Mem) : Option (State × Nat × Nat) :=
  match s.programOrder.findSome? fun k => (s.openBlocks k true).map fun e => (k, e) with
  | none => none
  | some (k, s1, bs) =>
    let n := tget 0 s1.flash.fillQlc k
    let b := bs.getD (n / 4) 0
    let ppa := 1024 * b + (s1.blk b).nextPage + n % 4
    let j := ((s1.putPage ppa data).modFlash fun f => { f with
      mediaIu := f.mediaIu + 1, fillQlc := tset f.fillQlc k (n + 1) }).joinStripe ppa
    some (if n + 1 = 16 then j.1.programWordline k else j.1, ppa, j.2)

/-- The wordline of a copied page settled (R260): the wordlines that this takes are programmed, without data where none
has been gathered (DESIGN CHOICE, notes/assumptions/113.md). -/
def State.settlePage : Nat → Nat → State → State
  | 0, _, s => s
  | n + 1, ppa, s =>
    if s.pageSettled ppa || !(s.openOn (s.pageStack ppa) true).contains (pageBlock ppa) then s
    else State.settlePage n ppa (s.programWordline (s.pageStack ppa))

/-- A read-back passes when every codeword of the unit decodes in hard decision with at most 48 corrected bits (R261). -/
def readBackOk (worst : Option Nat) : Bool := worst.any fun b => decide (b ≤ 48)

/-- The read-back of a page whose outcome is drawn (R261). -/
def State.drawReadBack (s : State) : State × Bool :=
  (s.modFlash fun f => { f with readBackDraws := f.readBackDraws + 1 },
   readBackOk (Config.readBack s.flash.readBackDraws))

/-- A read of a page: counted by its block and its stack (R280, Table 11.8). A block that reaches its
read count limit is due for refresh. -/
def State.countRead (s : State) (ppa : Nat) : State :=
  let s1 := s.modBlk (pageBlock ppa) fun x => { x with
    reads := x.reads + 1
    refresh := x.refresh || decide ((if x.qlc then 50000 else 500000) ≤ x.reads + 1) }
  s1.modStack (s.pageStack ppa) fun z => { z with reads := z.reads + 1 }

/-- A strike against a block; three retire it once its valid data has been moved (R263). It is open no longer. -/
def State.strike (s : State) (b : Nat) : State :=
  let k := s.blockStack b
  let s1 := s.modBlk b fun x => { x with strikes := x.strikes + 1, refresh := x.refresh || decide (3 ≤ x.strikes + 1) }
  let s2 := if (s1.openOn k false).contains b then s1.setOpen k false [] else s1
  if (s2.openOn k true).contains b then s2.setOpen k true [] else s2

/-! ## The static pSLC regions (R257, R258, R273) -/

/-- Block `i` of the `n` blocks for each plane, after the first `from'`, of a region on stack `k`: even over the dies. -/
def State.regionBlock (s : State) (k from' n i : Nat) : Nat :=
  s.planeBase k (i % s.diesPerStack) (i / s.diesPerStack / n) + from' + i / s.diesPerStack % n

/-- Block `i` of the part of a region that is being written on stack `k`: the whole metadata region (role 2), or the slot of
the checkpoint region (role 1) that does not hold the latest flash checkpoint (R360). -/
def State.slotBlock (s : State) (k role i : Nat) : Nat :=
  let half := 2 * s.ckptPerPlane * s.diesPerStack
  if role = 1 then s.regionBlock k 0 s.ckptPerPlane (i % half + (if s.ckpt.flashSlot = 0 then half else 0))
  else s.regionBlock k s.ckptPerPlane metaPerPlane (i % (4 * metaPerPlane * s.diesPerStack))

/-- The first page from `i` on, counted through the blocks, that lies on a die in service and in a good block. -/
def State.regionPage (s : State) (k role : Nat) : Nat → Nat → Nat
  | 0, i => i
  | n + 1, i =>
    let b := s.slotBlock k role (i / 256)
    if s.dieServes k (s.blockDie b) && !s.mfg.badBlocks.contains b then i
    else s.regionPage k role n (256 * (i / 256 + 1))

/-- The next page of a region of role `role` on stack `k`, counted through its blocks: `from'` is the count so far. A block
that was programmed before has been erased for it. -/
def State.takeRegion (s : State) (k role from' : Nat) : State × Nat :=
  let i := s.regionPage k role (4 * (s.ckptPerPlane + metaPerPlane) * s.diesPerStack) from'
  let b := s.slotBlock k role (i / 256)
  let again := decide (i % 256 = 0) && decide (0 < (s.blk b).nextPage)
  let s1 := s.modBlk b fun x => { x with
    st := 0, role := role, nextPage := i % 256 + 1
    pslcErases := x.pslcErases + b2n again, reads := if again then 0 else x.reads }
  ((s1.modStack k fun z => { z with
    programs := z.programs + 1, erases := z.erases + BitVec.ofNat 64 (b2n again) }).modFlash fun f =>
      if role = 1 then { f with
        ckptNext := tset f.ckptNext k (i + 1)
        ckptPages := (if again then f.ckptPages.filter fun p => pageBlock p != b else f.ckptPages) ++
          [1024 * b + i % 256] }
      else { f with metaNext := tset f.metaNext k (i + 1) }, 1024 * b + i % 256)

/-- A page of the checkpoint region programmed and read (R360): the stacks in service take them in turn. -/
def State.programCkpt (s : State) : State :=
  let n := s.ckpt.regionWritten / 16384
  let k := (((List.range 32).map fun i => (n + i) % 32).find? s.stacksUp.contains).getD (n % 32)
  let r := s.takeRegion k 1 (tget 0 s.flash.ckptNext k)
  (r.1.countRead r.2).modCkpt fun c => { c with regionWritten := c.regionWritten + 16384 }

/-- A page of the metadata region on stack `k` programmed; it belongs to a stripe (R267). Its contents are the records
that `Flash.journal` holds. -/
def State.programMeta (s : State) (k : Nat) : State × Nat :=
  let r := s.takeRegion k 2 (tget 0 s.flash.metaNext k)
  ((r.1.joinStripe r.2).1, r.2)

/-- The stack `s` of the two stacks `s` and (s + 16) mod 32 that take the next journal page (R273); none when no two
stacks remain on which the journal can be written (R286). -/
def State.journalStack (s : State) : Option Nat :=
  ((List.range 32).map fun i => (s.flash.jseq + i) % 32).find? fun k =>
    s.stacksUp.contains k && s.stacksUp.contains ((k + 16) % 32)

/-- The bytewise exclusive or of two page contents. -/
def xorMem (a b : Mem) : Mem := b.foldl (fun m e => m.put e.1 (m.get e.1 ^^^ e.2)) a

/-! ## The map and what the host reads (R270, R301-R303) -/

/-- The map key of IU `iu` of namespace `n`. -/
def iuKey (n iu : Nat) : Nat := n * 2 ^ 40 + iu

/-- The contents of the page that the map names for an IU key; unmapped reads as 0x00 (R40). -/
def State.mapData (s : State) (key : Nat) : Mem :=
  match tget 0 s.flash.map key with
  | 0 => []
  | p + 1 => tget [] s.flash.media p

/-- True when the write buffer holds logical block `lba` of an accepted part for reads (R303): until its records have
been applied, and after that for as long as the map names the page that the part programmed. -/
def State.inBuffer (s : State) (p : Part) (lba : Nat) : Bool :=
  (decide (1 ≤ p.stage) && decide (p.stage ≤ 3)) ||
    (p.stage == 4 && p.ius.any fun x => x.1 == lba / 4 && decide (0 < x.2.2) &&
      tget 0 s.flash.map (iuKey p.nsid (lba / 4)) == x.2.2)

/-- The newest buffered part that covers a logical block (R303). -/
def State.newestPart (s : State) (nsid lba : Nat) : Option Part :=
  (s.flash.parts.filter fun p => s.inBuffer p lba && p.nsid == nsid && decide (p.slba ≤ lba) &&
    decide (lba < p.slba + p.blocks)).foldl (fun (m : Option Part) p =>
      match m with
      | none => some p
      | some x => if x.order < p.order then some p else some x) none

/-- The 4,096 bytes of a logical block as a read returns them (R303), from offset 0. -/
def State.blockData (s : State) (nsid lba : Nat) : Mem :=
  match s.newestPart nsid lba with
  | some p => p.data.slice ((lba - p.slba) * 4096) 4096 0
  | none => (s.mapData (iuKey nsid (lba / 4))).slice (lba % 4 * 4096) 4096 0

/-- The bytes of `blocks` logical blocks from `slba` on, as a buffer. -/
def State.readBlocks (s : State) (nsid slba blocks : Nat) : Mem :=
  (List.range blocks).foldl (fun m i => m.copyIn (4096 * i) (s.blockData nsid (slba + i)) 0 4096) []

/-- The contents of IU `iu` as part `p` programs it: its current data merged with every accepted part up
to `p` (R262). -/
def State.mergedIu (s : State) (p : Part) (iu : Nat) : Mem :=
  let earlier := sortBy (fun a b => decide (a.order ≤ b.order))
    (s.flash.parts.filter fun q => s.inBuffer q (4 * iu) && q.nsid == p.nsid && decide (q.order ≤ p.order))
  (List.range 4).foldl (fun m i =>
    let lba := 4 * iu + i
    match (earlier.filter fun q => decide (q.slba ≤ lba) && decide (lba < q.slba + q.blocks)).getLast? with
    | some q => m.copyIn (4096 * i) q.data ((lba - q.slba) * 4096) 4096
    | none => m) (s.mapData (iuKey p.nsid iu))

/-! ## The journal (R273) -/

/-- True when a map entry counts: those of T3 space tiles (namespace 0) do while an extent holds the tile in T3. -/
def State.liveKey (s : State) (key : Nat) : Bool :=
  if key / 2 ^ 40 ≠ 0 then true
  else
    let a := 16384 * (key % 2 ^ 40)
    let e := s.extent (addrDie a) (addrSlot a)
    ((e.st == 1 || e.st == 2) && (e.copyTier == 3 || e.homeTier == 3)) ||
      (e.st == 2 && e.destTier == 3 && e.landed.contains (addrTile a))

/-- Valid IUs of a block: map entries that name one of its pages. -/
def State.validIn (s : State) (b : Nat) : List (Nat × Nat) :=
  s.flash.map.filter fun e => decide (0 < e.2) && pageBlock (e.2 - 1) == b && s.liveKey e.1

/-- A scan that stops early with a flag and a status (R51). -/
def Scan.halt (x : Scan) (flag : Nat) (st : Status) : Scan :=
  { x with stopped := true, stopFlags := x.stopFlags ||| flag, status := st }

/-- The scan that holds the oldest pin ends as at a limit, with Command Interrupted (R58, R272). -/
def State.endOldestPin (s : State) : State :=
  match s.flash.pins with
  | [] => s
  | p :: _ => s.modScan p.scan fun x => if x.stopped then x else x.halt 8 .commandInterrupted

/-- Entries of the pin-delta table (R272). -/
def pinDeltaLimit : Nat := 16777216

/-- One map entry changed: pinned scans keep the former value, and the oldest pin's scan ends when the table fills
(R272); a copy of its segment in the Host Memory Buffer is dropped (R271); a block that loses its last valid page notes
when. -/
def State.setMap (s : State) (key v : Nat) : State :=
  let old := tget 0 s.flash.map key
  let seq := s.flash.jseq
  let s1 := s.modFlash fun f => { f with
    map := if v = 0 then tdel f.map key else tset f.map key v
    hmbSegs := f.hmbSegs.filter fun g => g != key / 512
    pinDelta := f.pinDelta ++ ((f.pins.filter fun p => p.nsid == key / 2 ^ 40 &&
      !(f.pinDelta.any fun e => e.1 == p.scan && e.2.1 == key)).map fun p => (p.scan, key, old)) }
  let s2 := if pinDeltaLimit ≤ s1.flash.pinDelta.length then s1.endOldestPin else s1
  if old = 0 ∨ !(s2.validIn (pageBlock (old - 1))).isEmpty then s2
  else s2.modBlk (pageBlock (old - 1)) fun b => { b with freedAt := seq }

/-- Segments that the map cache holds: 3 GiB of each face die's control-core area (R270). -/
def cacheSegments : Nat := 1572864

/-- The Host Memory Buffer that the physical functions have granted, in 4 KiB segments (R300). -/
def State.hmbRoom (s : State) : Nat := (s.pfs.map fun f => (s.ctl f).hmbBytes).foldl (· + ·) 0 / 4096

/-- The segments in the Host Memory Buffer after a grant has changed: disabling or shrinking it drops copies only (R271). -/
def State.trimHmb (s : State) : State :=
  let room := s.hmbRoom
  s.modFlash fun f => { f with hmbSegs := f.hmbSegs.take room }

/-- The map segment of an entry looked up (R270, R271): in the map cache, in the Host Memory Buffer, where a segment whose
CRC-32C fails is counted and not used, or in the metadata region. It then lies in the cache, and the segment that it
displaces goes to the Host Memory Buffer. -/
def State.lookup (s : State) (key : Nat) : State :=
  let g := key / 512
  let f := s.flash
  if f.mapCache.contains g then
    s.modFlash fun f => { f with mapCache := g :: f.mapCache.filter fun x => x != g }
  else
    let held := f.hmbSegs.contains g
    let bad := held && !Config.hmbCrc f.hmbDraws
    s.modFlash fun f => { f with
      hmbDraws := f.hmbDraws + b2n held, hmbErr := f.hmbErr + BitVec.ofNat 64 (b2n bad)
      mapCache := (g :: f.mapCache).take cacheSegments
      hmbSegs := (((g :: f.mapCache).drop cacheSegments) ++ f.hmbSegs.filter fun x => x != g).take s.hmbRoom }

/-- The entries of the IUs that a range of logical blocks touches looked up. -/
def State.lookupRange (s : State) (nsid slba blocks : Nat) : State :=
  if blocks = 0 then s
  else ((List.range ((slba + blocks - 1) / 4 - slba / 4 + 1)).map fun i => iuKey nsid (slba / 4 + i)).foldl State.lookup s

/-- The unreadable marks of a range of logical blocks cleared (R278). -/
def State.clearMarks (s : State) (nsid lba n : Nat) : State :=
  s.modFlash fun f => { f with
    unreadable := f.unreadable.filter fun e =>
      !(e.1 == nsid && decide (lba ≤ e.2) && decide (e.2 < lba + n)) }

/-- A namespace's map epoch passed on (Table 0.4); T3, which goes by namespace 0, has none. -/
def State.nextEpoch (s : State) (nsid : Nat) : State :=
  if nsid = 0 then s else s.modNs nsid fun n => { n with epoch := n.epoch + 1 }

/-! ## Marks and retirements (R268, R269, R277, R278) -/

/-- Logical blocks marked unreadable (R278, Table 11.3). -/
def State.setMarks (s : State) (nsid lba n : Nat) : State :=
  s.modFlash fun f => { f with
    everMarked := f.everMarked || decide (0 < n)
    unreadable := f.unreadable ++ ((List.range n).map fun i => (nsid, lba + i)).filter
      fun e => !f.unreadable.contains e }

/-- Logical blocks `n` from `lba` on marked unreadable (R278): the record is queued, the repair log takes an
entry and event 0x06 is raised. -/
def State.markUnreadable (s : State) (nsid lba n : Nat) : State :=
  let s1 := (s.setMarks nsid lba n).queueRecs none [.unreadable nsid lba n]
  (s1.repair 0x11 0x03 nsid (lba + 2 ^ 48 * n)).flashEvent 0x06 0xFF 0xFF

/-- The IU that the map keeps at a physical page. -/
def State.keyAt (s : State) (ppa : Nat) : Option Nat :=
  (s.flash.map.find? fun e => e.2 == ppa + 1 && s.liveKey e.1).map (·.1)

/-- Codewords of a page that cannot be read at all, by bit of `mask` (R277 step 5): the logical block of each is marked,
or the space tile of a T3 page is poisoned (R178). -/
def State.losePage (s : State) (ppa mask : Nat) : State :=
  match s.keyAt ppa with
  | none => s
  | some k =>
    if k / 2 ^ 40 = 0 then
      let a := 16384 * (k % 2 ^ 40)
      s.modExtent (addrDie a) (addrSlot a) fun e => { e with poison := insSorted (addrTile a) e.poison }
    else
      ((List.range 4).filter (bitOf mask)).foldl (fun t i =>
        t.markUnreadable (k / 2 ^ 40) (4 * (k % 2 ^ 40) + i) 1) s

/-- True when a physical page lies on a die that is out of service. -/
def State.pageGone (s : State) (ppa : Nat) : Bool :=
  !s.dieServes (s.pageStack ppa) (s.blockDie (pageBlock ppa))

/-- Pages of stripes that have lost two members before a rebuild ended are unreadable (R269). -/
def State.lostStripes (s : State) : State :=
  (s.flash.stripes.flatMap fun x =>
    let pages := x.members ++ (if x.parity = 0 then [] else [x.parity - 1])
    let gone := pages.filter s.pageGone
    if 2 ≤ gone.length then gone else []).foldl (fun t p =>
      match t.keyAt p with
      | some k => if (t.flash.unreadable.any fun e => e.1 == k / 2 ^ 40 && e.2 / 4 == k % 2 ^ 40) then t
          else t.losePage p 15
      | none => t) s

/-- The map value of an IU key as the epoch pinned by scan `i` holds it. -/
def State.pinnedMap (s : State) (i key : Nat) : Nat :=
  match s.flash.pinDelta.find? fun e => e.1 == i && e.2.1 == key with
  | some e => e.2.2
  | none => tget 0 s.flash.map key

/-- The stack whose sieve takes the page at `lba`: the one that holds it. A page that nothing maps goes
to a stack by its number (DESIGN CHOICE, notes/assumptions/21.md). -/
def State.scanStack (s : State) (i nsid lba : Nat) : Nat :=
  match s.pinnedMap i (iuKey nsid (lba / 4)) with
  | 0 => lba / 4 % 32
  | p + 1 =>
    if s.dieServes (s.pageStack p) (s.blockDie (pageBlock p)) then s.pageStack p
    else ((s.flash.stripes.find? fun x => x.members.contains p && decide (0 < x.parity)).map
      (·.parityStack)).getD (s.pageStack p)

/-- The pages of scans still to be processed, on the stacks that take them now (R269): one whose copy lies on a retired die
goes to the stack of its stripe's parity. -/
def State.reassignScans (s : State) : State :=
  s.modScans fun l => l.map fun x => { x with
    pages := x.pages.map fun p => { p with stack := s.scanStack x.id x.nsid p.lba } }

/-- What follows a retirement of flash: stripes, the pages of scans, the spare, and read-only end of life (R286). -/
def State.afterRetire (s : State) : State :=
  let t := s.lostStripes.recount.reassignScans
  if t.journalStack.isNone then t.endOfLife else t

/-- A die leaves service (R268): its valid pages are rebuilt, and the entry and event 0x03 record it. -/
def State.retireDie (s : State) (stack die : Nat) : State :=
  if s.dieServes stack die = false ∨ s.diesPerStack ≤ die then s
  else
    let s1 := s.modStack stack fun z => { z with dieRetired := z.dieRetired ++ [die], rebuilding := true, st := 1 }
    let s2 := s1.queueRecs none [.retire 1 (16 * stack + die)]
    ((s2.repair 0x0F 0x01 (16 * stack + die) 0).flashEvent 0x03 stack die).afterRetire

/-- Grown bad blocks of a die. -/
def State.dieBad (s : State) (k d : Nat) : Nat :=
  (s.flash.blocks.filter fun e => e.2.st == 2 && s.blockStack e.1 == k && s.blockDie e.1 == d).length

/-- A block retired in service (R258, R263): a die whose grown bad blocks exceed 2 % of its 16,384 is retired (R268). -/
def State.blockRetired (s : State) (b : Nat) : State :=
  let t := (s.modFlash fun f => { f with grownBad := f.grownBad + 1 }).recount
  if 327 < t.dieBad (t.blockStack b) (t.blockDie b) then t.retireDie (t.blockStack b) (t.blockDie b) else t

/-! ## Durable records (R273, R274) -/

/-- The stripes without the pages for which `gone` holds, erased or discarded; their parity covers the members that remain
(DESIGN CHOICE, notes/assumptions/113.md). -/
def State.leaveStripes (s : State) (gone : Nat → Bool) : State :=
  s.modFlash fun f =>
    let stale := f.stripes.filter fun x => decide (0 < x.parity) && x.members.any gone
    { f with
      media := stale.foldl (fun m x => tset m (x.parity - 1)
        ((x.members.filter gone).foldl (fun d p => xorMem d (tget [] f.media p))
          (tget [] f.media (x.parity - 1)))) f.media
      stripes := (f.stripes.map fun x => { x with members := x.members.filter fun p => !gone p }).filter
        fun x => !x.members.isEmpty }

/-- Block `b` erased, with its erase counts after it (R274): it is free, or retired at wear 1.0 (R258). -/
def State.erased (s : State) (b p q : Nat) : State :=
  let worn := decide (150000 ≤ 50 * q + 3 * p)
  let room := (s.blk b).pages
  let s1 := (s.leaveStripes fun p => pageBlock p == b).modBlk b fun x => { x with
    st := if worn then 2 else 1, pslcErases := p, qlcErases := q, erasing := false
    nextPage := 0, reads := 0, refresh := false, qlc := false, strikes := 0 }
  let s2 := s1.modFlash fun f => { f with
    media := f.media.filter fun e => pageBlock e.1 != b
    credit := if f.throttling then f.credit + room else f.credit }
  let s3 := s2.modStack (s.blockStack b) fun z => { z with erases := z.erases + 1 }
  (if worn then s3.blockRetired b else s3.recount).wearCheck

/-- What a durable record does to the map, the blocks and the marks (Table 11.3, R274, R278). -/
def State.applyRec (s : State) (r : JRec) : State :=
  match r with
  | .write nsid slba blocks ius =>
    ((ius.foldl (fun t e => t.setMap (iuKey nsid e.1) (e.2 + 1)) s).clearMarks nsid slba blocks).nextEpoch
      nsid
  | .dealloc nsid first count =>
    let keys := (s.flash.map.filter fun e =>
      decide (iuKey nsid first ≤ e.1) && decide (e.1 < iuKey nsid (first + count))).map (·.1)
    ((keys.foldl (fun t k => t.setMap k 0) s).clearMarks nsid (4 * first) (4 * count)).nextEpoch nsid
  | .relocate key old new =>
    if tget 0 s.flash.map key = old + 1 then s.setMap key (new + 1) else s
  | .fold key old new =>
    if tget 0 s.flash.map key = old + 1 then s.setMap key (new + 1) else s
  | .mapCkpt covers =>
    s.modFlash fun f => { f with
      ckptMap := f.map, ckptSeq := covers, journal := f.journal.filter fun e => decide (covers < e.seq)
      journalPages := 0 }
  | .eraseIntent b => s.modBlk b fun x => { x with erasing := true }
  | .eraseDone b p q => s.erased b p q
  | .retire kind item =>
    if kind = 0 then (s.modBlk item fun x => { x with st := 2 }).blockRetired item else s
  | .unreadable nsid lba n => s.setMarks nsid lba n

/-- One record made durable on `pages`: it takes the next sequence number and is applied. A MAP_CKPT record covers what
precedes it. -/
def State.commitRec (pages : List Nat) (s : State) (r : JRec) : State :=
  let r1 := match r with
    | .mapCkpt _ => .mapCkpt s.flash.jseq
    | x => x
  (s.modFlash fun f => { f with
    jseq := f.jseq + 1, journal := { seq := f.jseq + 1, record := r1, pages := pages } :: f.journal }).applyRec r1

/-- Journal pages of 16 KiB in 1 GiB. -/
def ckptEvery : Nat := 65536

/-- Records made durable together (R273): each of two stacks takes a page of the metadata region, and a MAP_CKPT record
follows every 1 GiB of journal. -/
def State.commitGroup (s : State) (rs : List JRec) : State :=
  let k := s.journalStack.getD 0
  let a := s.programMeta k
  let b := a.1.programMeta ((k + 16) % 32)
  let s1 := b.1.modFlash fun f => { f with journalPages := f.journalPages + 1 }
  let s2 := rs.foldl (State.commitRec [a.2, b.2]) s1
  if ckptEvery ≤ s2.flash.journalPages ∧ (s2.flash.queued.any fun g => g.2.contains (.mapCkpt 0)) = false then
    s2.queueRecs none [.mapCkpt 0]
  else s2

/-! ## Write parts -/

/-- A write command whose part `i` has ended: it completes with its status once no part remains. -/
def State.partEnded (s : State) (i : Nat) (st : Status) : State :=
  s.host.ops.foldl (fun t o =>
    match o.kind with
    | .write ps cur =>
      if ps.contains i then
        let rest := ps.filter fun p => p != i
        let st1 := if st = .success then cur else st
        if rest.isEmpty then t.finish o.id st1
        else t.modOp o.id fun _ => .write rest st1
      else t
    | _ => t) s

/-- Flush commands that wait for nothing any more complete (R304). -/
def State.serveFlushes (s : State) : State :=
  s.host.ops.foldl (fun t o =>
    match o.kind with
    | .flush ws => if ws.any fun w => (t.op w).isSome then t else t.finish o.id .success
    | _ => t) s

/-- Buffers whose write is durable and whose stripes all have parity are freed, and void ones
(R266). -/
def State.freeBuffers (s : State) : State :=
  s.modFlash fun f => { f with
    parts := f.parts.filter fun p => !(p.stage == 5 || (p.stage == 4 &&
      p.stripes.all fun i => f.stripes.any fun x => x.id == i && decide (0 < x.parity))) }

/-- A write that ends with Write Fault, with the later writes of its queue that overlap it (R263,
R388): none of them takes effect in part (R12). -/
def State.writeFault (s : State) (p : Part) : State :=
  let ids := voidClosure s.flash.parts.length s.flash.parts [p]
  let ops := s.writeOpsOf (ids.filter fun i => i != p.id)
  let gone := (s.flash.parts.filter fun q => q.id == p.id || (ops.contains q.op && decide (q.stage < 4))).map (·.id)
  ((gone.foldl (fun t i => t.partEnded i .writeFault) (s.voidIds gone)).freeBuffers).serveFlushes

/-- The pages that a read of logical blocks takes from flash. -/
def State.pagesOf (s : State) (nsid slba blocks : Nat) : List Nat :=
  ((List.range blocks).filterMap fun i =>
    match s.newestPart nsid (slba + i) with
    | some _ => none
    | none =>
      match tget 0 s.flash.map (iuKey nsid ((slba + i) / 4)) with
      | 0 => none
      | p + 1 => some p).eraseDups

end Sys2Proof.Machine
end

