-- ==== Sys2Proof/Machine/FabOps.lean ====
section
/-! DEFINITION. The fabric's operations: positions and identifiers, the live graph and its routes, the
sending of messages, and the forwarding of writes to bound windows (R320-R345). -/

namespace Sys2Proof.Machine

/-! ## Positions (R35, R320, R321) -/

/-- The identifier of coordinates (x, y, z). -/
def coordId (x y z : Nat) : Nat := x + 16 * y + 256 * z

/-- The identifier of position `p` of board number `b`. -/
def boardCoord (b p : Nat) : Nat :=
  coordId (2 * (b % 8) + p % 2) (2 * (b / 8 % 8) + p / 2 % 2) (2 * (b / 64) + p / 4)

/-- The board number of a coordinate identifier. -/
def coordBoard (c : Nat) : Nat := c % 16 / 2 + 8 * (c / 16 % 16 / 2) + 64 * (c / 256 / 2)

/-- The board position of a coordinate identifier. -/
def coordPosition (c : Nat) : Nat := c % 2 + 2 * (c / 16 % 2) + 4 * (c / 256 % 2)

/-- The identifier of spare `i` of board `b`. -/
def spareIdent (b i : Nat) : Nat := 4096 + 2 * b + i

/-- The identifier that this module holds: its coordinates, its spare identifier, or the coordinates
that it has assumed. -/
def Fabric.ident (f : Fabric) : Nat :=
  if f.spare then
    match f.assumedHere with
    | some c => c
    | none => spareIdent f.board f.spareIndex
  else boardCoord f.board f.position

/-- The identifier by which this module names its ports: the spare identifier of a spare, whatever it has assumed. -/
def Fabric.selfIdent (f : Fabric) : Nat :=
  if f.spare then spareIdent f.board f.spareIndex else boardCoord f.board f.position

/-- The torus size in dimension `k`. -/
def Fabric.size (f : Fabric) (k : Nat) : Nat :=
  match k with | 0 => f.sizeX | 1 => f.sizeY | _ => f.sizeZ

/-- Coordinate `k` of an identifier. -/
def coordAt (c k : Nat) : Nat := match k with | 0 => c % 16 | 1 => c / 16 % 16 | _ => c / 256

/-- An identifier with coordinate `k` set to `v`. -/
def coordSet (c k v : Nat) : Nat :=
  match k with
  | 0 => coordId v (coordAt c 1) (coordAt c 2)
  | 1 => coordId (coordAt c 0) v (coordAt c 2)
  | _ => coordId (coordAt c 0) (coordAt c 1) v

/-- The neighbour of a torus coordinate on port `p` (0-5). -/
def Fabric.neighbour (f : Fabric) (c p : Nat) : Nat :=
  let k := p / 2
  let s := f.size k
  coordSet c k (if p % 2 = 0 then (coordAt c k + 1) % s else (coordAt c k + s - 1) % s)

/-- True when an identifier is a coordinate of the torus. -/
def Fabric.inTorus (f : Fabric) (c : Nat) : Bool :=
  decide (c < 4096) && decide (coordAt c 0 < f.sizeX) && decide (coordAt c 1 < f.sizeY) &&
    decide (coordAt c 2 < f.sizeZ)

/-! ## The live graph and the routing table (R330, R331) -/

/-- The spare identifier that has assumed a coordinate. -/
def Fabric.spareOf (f : Fabric) (c : Nat) : Option Nat :=
  (f.assumed.find? fun e => e.1 == c).map (·.2)

/-- The coordinate that a spare has assumed. -/
def Fabric.coordOfSpare (f : Fabric) (sp : Nat) : Option Nat :=
  (f.assumed.find? fun e => e.2 == sp).map (·.1)

/-- The name of a link by the module and port of one of its ends: a torus link by its end on a + port, a spare link by the
torus module (R321, R322). -/
def Fabric.linkKey (f : Fabric) (m p : Nat) : Nat × Nat :=
  if 4096 ≤ m then (boardCoord ((m - 4096) / 2) p, 6 + m % 2)
  else if p < 6 ∧ p % 2 = 1 then (f.neighbour m p, p - 1)
  else (m, p)

/-- True when the record holds a link as up (R334). -/
def Fabric.linkUp (f : Fabric) (m p : Nat) : Bool := !f.down.contains (f.linkKey m p)

/-- The node that port `p` of node `c` leads to over a live link (R330). A spare is joined by its spare links only, and
no link of the live graph leads to one that has assumed no coordinates. -/
def Fabric.link (f : Fabric) (c p : Nat) : Option Nat :=
  let spare := if 4096 ≤ c then some c else f.spareOf c
  match spare with
  | some sp =>
    let n := boardCoord ((sp - 4096) / 2) p
    if p < 8 ∧ n ≠ c ∧ (f.spareOf n).isNone ∧ f.linkUp sp p then some n else none
  | none =>
    if p < 6 then
      let n := f.neighbour c p
      if (f.spareOf n).isNone ∧ f.linkUp c p then some n else none
    else
      match f.coordOfSpare (spareIdent (coordBoard c) (p - 6)) with
      | some n => if p < 8 ∧ f.linkUp c p then some n else none
      | none => none

/-- The neighbours of a node in the live graph. -/
def Fabric.links (f : Fabric) (c : Nat) : List Nat := (List.range 8).filterMap fun p => f.link c p

/-- Breadth-first distance from a frontier to `goal`, nodes `seen` left out. -/
def Fabric.search (f : Fabric) (goal : Nat) : Nat → List Nat → List Nat → Nat → Option Nat
  | 0, _, _, _ => none
  | n + 1, front, seen, d =>
    if front.contains goal then some d
    else if front.isEmpty then none
    else
      let next := ((front.flatMap f.links).filter fun x => !seen.contains x).eraseDups
      Fabric.search f goal n next (seen ++ next) (d + 1)

/-- The hop distance between two nodes of the live graph. -/
def Fabric.distance (f : Fabric) (a b : Nat) : Option Nat := f.search b 4097 [a] [a] 0

/-- The dimension-order port from `c` to `dst` (R330); a spare's ports lead along no dimension. -/
def Fabric.dimPort (f : Fabric) (c dst : Nat) : Option Nat :=
  if 4096 ≤ c ∨ (f.spareOf c).isSome then none
  else (List.range 3).findSome? fun k =>
    let s := f.size k
    let d := (coordAt dst k + s - coordAt c k) % s
    if d = 0 then none else some (if s < 2 * d then 2 * k + 1 else 2 * k)

/-- A routing table entry (Table 13.5). -/
structure Route where
  primary : Nat := 0
  alternate : Nat := 0
  primaryValid : Bool := false
  alternateValid : Bool := false
  hops : Nat := 0
  isLocal : Bool := false
deriving DecidableEq, Repr

/-- The entry as the 16 bits of Table 13.5. -/
def Route.bits (r : Route) : Nat :=
  r.primary + 8 * r.alternate + 64 * b2n r.primaryValid + 128 * b2n r.alternateValid +
    256 * (r.hops % 32) + 32768 * b2n r.isLocal

/-- The ports of the live node `c` with the hop count of the path through each to `dst`. -/
def Fabric.choices (f : Fabric) (c dst : Nat) : List (Nat × Nat) :=
  (List.range 8).filterMap fun p =>
    match f.link c p with
    | none => none
    | some n => (f.distance n dst).map fun d => (p, d + 1)

/-- The least of a list of (port, hops) choices: fewest hops, then the favoured port, then the lowest. -/
def leastRoute (favour : Option Nat) (l : List (Nat × Nat)) : Option (Nat × Nat) :=
  l.foldl (fun m x =>
    match m with
    | none => some x
    | some y => if x.2 < y.2 ∨ (x.2 = y.2 ∧ favour = some x.1) then some x else some y) none

/-- The entry for a destination coordinate (R330). -/
def Fabric.route (f : Fabric) (dst : Nat) : Route :=
  let c := f.ident
  if dst = c then { isLocal := true, primaryValid := true }
  else
    let cs := f.choices c dst
    match leastRoute (f.dimPort c dst) cs with
    | none => {}
    | some (p, h) =>
      match leastRoute none (cs.filter fun x => x.1 != p) with
      | none => { primary := p, primaryValid := true, hops := h }
      | some (q, g) => { primary := p, primaryValid := true, hops := h, alternate := q
                         alternateValid := decide (g ≤ h + 2) }

/-- True when a port is ACTIVE. -/
def State.portActive (s : State) (p : Nat) : Bool := (s.port p).st == 5

/-- The coordinates towards which traffic for an identifier is routed (R331): those that a spare has assumed, otherwise
the lowest-numbered live torus module of its board. -/
def Fabric.target (f : Fabric) (dst : Nat) : Nat :=
  if dst < 4096 then dst
  else
    match f.coordOfSpare dst with
    | some c => c
    | none => ((List.range 8).map fun p => boardCoord ((dst - 4096) / 2) p).find?
        (fun c => (f.spareOf c).isNone && (f.distance f.ident c).isSome) |>.getD dst

/-- The port that traffic for an identifier leaves on now (R331, R332), none when it waits. -/
def State.exitPort (s : State) (dst : Nat) : Option Nat :=
  let f := s.fabric
  if f.spare ∧ f.assumedHere = none then (List.range 8).find? fun p => s.portActive p
  else
    let target := f.target dst
    if 4096 ≤ dst ∧ target = f.ident then
      if s.portActive (6 + dst % 2) then some (6 + dst % 2) else none
    else
      let r := f.route target
      if r.isLocal ∨ r.primaryValid = false then none
      else if s.portActive r.primary then some r.primary
      else if (s.port r.primary).switched ∧ r.alternateValid ∧ s.portActive r.alternate then
        some r.alternate
      else none

/-! ## Sending (R327-R329, R333) -/

/-- The dimension of a port, 3 for the spare ports. -/
def portDim (p : Nat) : Nat := p / 2

/-- The virtual channel of the next hop (R333): `vc` so far, `came` the port it came in on. -/
def Fabric.nextVc (f : Fabric) (vc dst out : Nat) (came : Option Nat) : Nat :=
  let c := f.ident
  let detoured := decide (2 ≤ vc) || (f.dimPort c (f.target dst) != some out)
  let kept := match came with
    | some q => decide (vc % 2 = 1) && portDim q == portDim out && !f.spare
    | none => false
  let k := portDim out
  let crosses := decide (out < 6) && !f.spare &&
    ((out % 2 == 0 && coordAt c k + 1 == f.size k) || (out % 2 == 1 && coordAt c k == 0))
  2 * b2n detoured + b2n (kept || crosses)

/-- Receive slots freed that one flit reports: at most 15 of each virtual channel (R328). -/
def Port.report (p : Port) : List Nat := p.freed.map (Nat.min 15)

/-- A port after it has sent a codeword: what its control word and its credits report is reported. -/
def Port.reported (p : Port) : Port :=
  { p with sendNak := false, ackDue := false, freed := p.freed.map fun n => n - 15 }

/-- The codeword in which port `k` sends a flit now (Tables 13.3 and 13.4): ack names the last flit accepted. -/
def Port.codeword (p : Port) (k seq : Nat) (idle : Bool) (credits : List Nat) (x : Flit) : Codeword :=
  { port := k, seq := seq, ack := (p.expectSeq + 511) % 512, nak := p.sendNak, idle := idle, credits := credits, flit := x }

/-- Flits that wait at port `k` leave while it is ACTIVE, a credit is held and the replay buffer has room (R327, R329). -/
def pumpPort (k : Nat) : Nat → Port → Port × List Codeword
  | 0, p => (p, [])
  | n + 1, p =>
    match p.txQueue with
    | [] => (p, [])
    | x :: rest =>
      if p.st = 5 ∧ p.replayBuf.length < 256 ∧ 0 < p.credits.getD x.vc 0 then
        let y := p.codeword k p.nextSeq false p.report x
        let q := { p.reported with
          txQueue := rest, nextSeq := (p.nextSeq + 1) % 512, replayBuf := p.replayBuf ++ [y]
          credits := listMod p.credits x.vc fun c => c - 1, flitsTx := p.flitsTx + 1 }
        let r := pumpPort k n q
        (r.1, y :: r.2)
      else (p, [])

/-- True when an ACTIVE port has something to report that no flit has carried. -/
def Port.owes (p : Port) : Bool := p.st == 5 && (p.sendNak || p.ackDue || p.freed.any fun n => decide (0 < n))

/-- Port `k` sends what it can, or an idle codeword that carries what it has to report. -/
def State.pump (s : State) (k : Nat) : State :=
  let r := pumpPort k (s.port k).txQueue.length (s.port k)
  let i := if r.1.owes then [r.1.codeword k ((r.1.nextSeq + 511) % 512) true r.1.report {}] else []
  (s.modPort k fun _ => if r.1.owes then r.1.reported else r.1).modFabric fun f => { f with
    sent := i ++ r.2.reverse ++ f.sent }

/-- A flit queued at a port and sent when it can be. -/
def State.sendFlit (s : State) (k : Nat) (x : Flit) : State :=
  (s.modPort k fun p => { p with txQueue := p.txQueue ++ [x] }).pump k

/-- A flit sent on port `k`, on the virtual channel of that hop. -/
def State.sendOn (s : State) (x : Flit) (came : Option Nat) (k : Nat) : State :=
  s.sendFlit k { x with vc := s.fabric.nextVc x.vc x.dst k came, came := came, vcIn := x.vc }

/-- A flit sent towards its destination, from this module or forwarded; without a usable route it
waits here (R332). -/
def State.routeFlit (s : State) (x : Flit) (came : Option Nat) : State :=
  match s.exitPort x.dst with
  | some k => s.sendOn x came k
  | none =>
    let y := { x with came := came }
    s.modFabric fun f => { f with stranded := if f.stranded.contains y then f.stranded else f.stranded ++ [y] }

/-- The flits of a message: at most 608 payload bytes each, at their own addresses, the last one marked (R328). -/
def messageFlits (m : Msg) (src epoch : Nat) : List Flit :=
  let n := Nat.max 1 (ceilDiv m.payload.len 608)
  (List.range n).map fun i =>
    let len := Nat.min 608 (m.payload.len - 608 * i)
    { kind := 1, dst := m.dst, src := src, epoch := epoch, msgSeq := m.seq, address := m.addr + 608 * i
      payload := { len := len, bytes := m.payload.bytes.slice (608 * i) len 0 }
      last := decide (i + 1 = n), signal := m.kind == .signal }

/-- The flits of a message of the retransmit store put on their way (R337). A spare asks for an image over its direct port
to the partner (R364). -/
def State.transmit (s : State) (m : Msg) : State :=
  (messageFlits m s.fabric.ident s.fabric.epoch).foldl (fun t x =>
    if m.kind = .imageAsk then t.sendOn x none (coordPosition m.dst) else t.routeFlit x none) s

/-- Bytes that a face die's half of the retransmit store holds (R337). -/
def State.storeBytes (s : State) (d : Nat) : Nat :=
  (s.fabric.store.filter fun m => m.die == d).foldl (fun n m => n + m.payload.len) 0

/-- True when the half of the store of die `d` can take `n` bytes more. -/
def State.storeRoom (s : State) (d n : Nat) : Bool := decide (s.storeBytes d + n ≤ 536870912)

/-- A message taken into the retransmit store with the next sequence of its pair, and sent. -/
def State.sendMsg (s : State) (m : Msg) : State :=
  let seq := tget 0 s.fabric.sendSeq m.dst
  let x := { m with seq := seq, sinceMs := s.now / 3000 }
  (s.modFabric fun f => { f with
    store := f.store ++ [x], sendSeq := tset f.sendSeq m.dst ((seq + 1) % 2 ^ 32) }).transmit x

/-- A flit of type `k` to `dst` that belongs to no message. -/
def State.sendControl (s : State) (k dst msgSeq : Nat) (payload : Buf := Buf.none) : State :=
  s.routeFlit { kind := k, dst := dst, src := s.fabric.ident, epoch := s.fabric.epoch, msgSeq := msgSeq
                payload := payload } none

/-! ## Windows (R340-R343) -/

/-- The confirmed bind of an extent, if it has one. -/
def State.boundWindow (s : State) (d j : Nat) : Option Window :=
  s.ts.windows.find? fun w => !w.accept && w.confirmed && w.die == d && w.slot == j

/-- Pieces of `n` bytes at offset `o`, split at 65,536 bytes. -/
def pieces : Nat → Nat → Nat → List (Nat × Nat)
  | 0, _, _ => []
  | f + 1, o, n =>
    if n = 0 then [] else
      let k := Nat.min n 65536
      (o, k) :: pieces f (o + k) (n - k)

/-- The forwarded pieces of a write of `n` bytes at offset `o`: the bytes around the signal word first,
then the word itself as a signal (R341, R343). -/
def Window.split (w : Window) (o n : Nat) : List (Nat × Nat × Bool) :=
  match w.signalAt with
  | none => (pieces (n + 1) o n).map fun e => (e.1, e.2, false)
  | some g =>
    if g < o + n ∧ o < g + 8 then
      ((pieces (n + 1) o (g - o)) ++ (pieces (n + 1) (g + 8) (o + n - (g + 8)))).map
        (fun e => (e.1, e.2, false)) ++ [(g, 8, true)]
    else (pieces (n + 1) o n).map fun e => (e.1, e.2, false)

/-- A write of `n` bytes at `a` that has taken effect is forwarded when its extent is a bound window
(R341). -/
def State.forwardWrite (s : State) (a n : Nat) (prog : Option Nat) : State :=
  match s.boundWindow (addrDie a) (addrSlot a) with
  | none => s
  | some w =>
    (w.split (a % 2 ^ 31) n).foldl (fun t e =>
      t.sendMsg { dst := w.coord, seq := 0, addr := w.remote + e.1
                  payload := { len := e.2.1
                               bytes := t.ts.mem.slice (extentBase (addrDie a) (addrSlot a) + e.1) e.2.1 0 }
                  kind := if e.2.2 then .signal else .write, die := addrDie a, fn := w.fn, prog := prog
                  exec := prog.bind fun k => (s.prog k).running }) s

/-- A write to the tensor space that forwards to a bound window; it waits while the retransmit store
has no room for it. -/
def State.tsStore (s : State) (who : Who) (fn a n : Nat) (prog : Option Nat) (f : Mem → Mem)
    (fail : Acc → State → State) (k : State → State) : State :=
  if (s.boundWindow (addrDie a) (addrSlot a)).isSome ∧ s.storeRoom (addrDie a) n = false then fail .wait s
  else s.tsWrite who fn a n f fail fun t => k (t.forwardWrite a n prog)

/-- Unacknowledged messages for which `p` holds are abandoned: the commands that issued them, the running executes whose
writes they forward among them, end with the status. -/
def State.abandonMsgs (s : State) (p : Msg → Bool) (st : Status) : State :=
  let gone := s.fabric.store.filter p
  let s1 := s.modFabric fun f => { f with store := f.store.filter fun m => !p m }
  let s2 := ((gone.filterMap (·.op)).eraseDups).foldl (fun t o => t.finish o st) s1
  ((gone.filterMap (·.exec)).eraseDups).foldl (fun t i =>
    ((t.host.programs.filter fun p => p.2.running == some i).map (·.1)).foldl
      (fun u k => u.endExecution k st 0 none) t) s2

/-- The partner of this module: the module at position xor 1 of its board (R349), by the coordinates
it holds. -/
def Fabric.partner (f : Fabric) : Nat :=
  let c := f.ident
  boardCoord (coordBoard c) (coordPosition c ^^^ 1)

/-- True when the partner is in the live graph and reachable. -/
def State.partnerLive (s : State) : Bool :=
  s.fabric.configured && decide (s.fabric.ident < 4096) &&
    (s.fabric.distance s.fabric.ident s.fabric.partner).isSome

end Sys2Proof.Machine
end

