-- ==== Sys2Proof/Machine/Flags.lean ====
section
/-! DEFINITION. The arithmetic conditions of BN_ARITH_STAT (Table 3.7) and the conversions that raise
them: narrowing and widening between the formats of Table 3.1, the vector arithmetic of Table 3.6, the
weight encoding of R67 and the quantiser of R70 and R71. -/

namespace Sys2Proof.Machine

/-- The conditions of Table 3.7 that an operation meets. -/
structure Flags where
  nonfinite : Bool := false
  saturated : Bool := false
  invalid : Bool := false
  overflow : Bool := false
deriving DecidableEq, Repr

/-- The conditions of two operations together. -/
def Flags.or (a b : Flags) : Flags :=
  { nonfinite := a.nonfinite || b.nonfinite, saturated := a.saturated || b.saturated
    invalid := a.invalid || b.invalid, overflow := a.overflow || b.overflow }

/-- The conditions of a list of results. -/
def flagsOf {α : Type} (l : List (α × Flags)) : Flags := l.foldl (fun f x => f.or x.2) {}

/-- BN_ARITH_STAT with conditions set; a bit set stays set (R86). -/
def Bench.flag (b : Bench) (f : Flags) : Bench :=
  { b with nonfiniteIn := b.nonfiniteIn || f.nonfinite, outSaturated := b.outSaturated || f.saturated
           fpInvalid := b.fpInvalid || f.invalid, fpOverflow := b.fpOverflow || f.overflow }

/-- BN_ARITH_STAT of bench `b` with conditions set. -/
def State.flag (s : State) (b : Nat) (f : Flags) : State := s.modBench b fun x => x.flag f

/-- A result of FP32 arithmetic with its conditions. -/
def ofOut (o : Fp.Out) : Word × Flags := (o.bits, { invalid := o.invalid, overflow := o.overflow })

/-! ## Formats of the vector unit (Tables 3.1 and 5.5) -/

/-- The vector formats, in the order of their codes 0 to 5. -/
inductive VFmt where
  | fp32 | bf16 | i32 | i16 | i8 | u8z
deriving DecidableEq, Repr

/-- The vector format of a code; 6 and 7 are invalid. -/
def vfmtOf (c : Nat) : Option VFmt :=
  match c with
  | 0 => some .fp32 | 1 => some .bf16 | 2 => some .i32 | 3 => some .i16 | 4 => some .i8
  | 5 => some .u8z | _ => none

/-- True for the formats whose lanes are read as FP32 values (R471). -/
def VFmt.isFloat (f : VFmt) : Bool := f == .fp32 || f == .bf16

/-- Bytes of an element in memory. -/
def VFmt.bytes : VFmt → Nat
  | .fp32 => 4 | .bf16 => 2 | .i32 => 4 | .i16 => 2 | .i8 => 1 | .u8z => 1

/-- The range of an integer format. -/
def VFmt.lo : VFmt → Int
  | .i16 => -32768 | .i8 => -128 | .u8z => 0 | _ => -2147483648

/-- The upper end of the range of an integer format. -/
def VFmt.hi : VFmt → Int
  | .i16 => 32767 | .i8 => 127 | .u8z => 255 | _ => 2147483647

/-- The lane of an element `v` of `f.bytes` bytes as LD widens it. -/
def VFmt.widen (f : VFmt) (v : Nat) : Word :=
  match f with
  | .bf16 => BitVec.ofNat 32 (v * 65536)
  | .i16 => BitVec.ofInt 32 (signed 16 v)
  | .i8 => BitVec.ofInt 32 (signed 8 v)
  | _ => BitVec.ofNat 32 v

/-- An integer narrowed to an integer format with saturation; I32 wraps modulo 2^32 (Table 3.6). -/
def VFmt.narrowInt (f : VFmt) (i : Int) : Word × Flags :=
  let w := BitVec.ofInt 32 i
  match f with
  | .i32 => (w, {})
  | _ => (BitVec.ofInt 32 (clampInt f.lo f.hi w.toInt),
          { saturated := decide (clampInt f.lo f.hi w.toInt ≠ w.toInt) })

/-- An FP32 value narrowed to a float format (R77); a BF16 infinity from a finite value is an
overflow. -/
def VFmt.narrowFloat (f : VFmt) (x : Word) : Word × Flags :=
  match f with
  | .bf16 => (Fp.bf16Away x, { overflow := Fp.isFinite x && Fp.isInf (Fp.bf16Away x) })
  | _ => (x, {})

/-- An FP32 value converted to an integer format: round_away, saturation, NaN gives 0 (Table 3.6). A NaN sets no flag
(DESIGN CHOICE, notes/assumptions/102.md). -/
def VFmt.ofFloat (f : VFmt) (x : Word) : Word × Flags :=
  (BitVec.ofInt 32 (Fp.toIntSat f.lo f.hi x), { saturated := Fp.satChanged f.lo f.hi x })

/-- A lane of `src_a` narrowed for ST (R471). -/
def VFmt.store (f : VFmt) (x : Word) : Word × Flags :=
  if f.isFloat then f.narrowFloat x else f.narrowInt x.toInt

/-- The memory bytes of a lane that ST has narrowed. -/
def VFmt.toBytes (f : VFmt) (x : Word) : List Byte :=
  match f with
  | .bf16 => leBytes 2 (x.toNat / 65536)
  | _ => leBytes f.bytes (x.toNat % 2 ^ (8 * f.bytes))

/-- CVT of one lane from `src` to `dst` (R471). -/
def convert (src dst : VFmt) (x : Word) : Word × Flags :=
  if src = dst then (x, {})
  else if src.isFloat then (if dst.isFloat then dst.narrowFloat x else dst.ofFloat x)
  else if dst.isFloat then dst.narrowFloat (Fp.ofInt x.toInt)
  else dst.narrowInt (clampInt dst.lo dst.hi x.toInt) |> fun r =>
    (r.1, { saturated := decide (clampInt dst.lo dst.hi x.toInt ≠ x.toInt) })

/-! ## Lane arithmetic (Tables 3.6 and 5.7) -/

/-- A float result with its conditions, narrowed to the format of the word. -/
def VFmt.result (f : VFmt) (o : Fp.Out) : Word × Flags :=
  let r := f.narrowFloat o.bits
  (r.1, ({ invalid := o.invalid, overflow := o.overflow } : Flags).or r.2)

/-- A float result of operands that are all finite or not. -/
def VFmt.resultOf (f : VFmt) (r : Word) (finiteIn : Bool) : Word × Flags := f.result (Fp.out r finiteIn)

/-- ADD. -/
def laneAdd (f : VFmt) (a b : Word) : Word × Flags :=
  if f.isFloat then f.result (Fp.add a b) else f.narrowInt (a + b).toInt
/-- SUB. -/
def laneSub (f : VFmt) (a b : Word) : Word × Flags :=
  if f.isFloat then f.result (Fp.sub a b) else f.narrowInt (a - b).toInt
/-- MUL: low 32 bits in the integer formats. -/
def laneMul (f : VFmt) (a b : Word) : Word × Flags :=
  if f.isFloat then f.result (Fp.mul a b) else f.narrowInt (a * b).toInt
/-- FMA: a × b + c, wrapping modulo 2^32 in the integer formats (R471). -/
def laneFma (f : VFmt) (a b c : Word) : Word × Flags :=
  if f.isFloat then f.result (Fp.fma a b c) else f.narrowInt (a * b + c).toInt
/-- MAX and MIN. -/
def laneExtremum (wantMax : Bool) (f : VFmt) (a b : Word) : Word × Flags :=
  if f.isFloat then f.resultOf (Fp.extremum wantMax [a, b]) (Fp.isFinite a && Fp.isFinite b)
  else f.narrowInt (if wantMax then Max.max a.toInt b.toInt else Min.min a.toInt b.toInt)
/-- CMPLT: 1 when a < b, else 0, in the word's format; a NaN operand is invalid (R471). -/
def laneCmplt (f : VFmt) (a b : Word) : Word × Flags :=
  if f.isFloat then
    (if Fp.lt a b then Fp.one else 0, { invalid := Fp.isNan a || Fp.isNan b })
  else (if a.toInt < b.toInt then 1 else 0, {})
/-- SEL: c ≠ 0 ? a : b. A NaN lane that it selects is written as the quiet NaN and sets no flag, for it is copied
and not produced (DESIGN CHOICE, notes/assumptions/102.md). -/
def laneSel (f : VFmt) (a b c : Word) : Word × Flags :=
  if f.isFloat then
    let x := if Fp.isZero c then b else a
    f.narrowFloat (if Fp.isNan x then Fp.qnan else x)
  else f.narrowInt (if c = 0 then b else a).toInt
/-- DIV. -/
def laneDiv (f : VFmt) (a b : Word) : Word × Flags := f.result (Fp.div a b)
/-- SQRT. -/
def laneSqrt (f : VFmt) (a : Word) : Word × Flags := f.result (Fp.sqrt a)
/-- RSQRT. -/
def laneRsqrt (f : VFmt) (a : Word) : Word × Flags := f.result (Fp.rsqrt a)
/-- EXP. -/
def laneExp (f : VFmt) (a : Word) : Word × Flags := f.result (Fp.exp a)

/-- Two lanes of a sum in progress, at positions that the free value chooses, replaced by their sum
(R83: the order in which partial sums combine is not stated). -/
def combineAt (round : Nat) (l : List Word) : List Word × Flags :=
  let i := Config.lanePick (2 * round) % l.length
  let rest := l.eraseIdx i
  let j := Config.lanePick (2 * round + 1) % rest.length
  let o := Fp.add (l.getD i 0) (rest.getD j 0)
  (o.bits :: rest.eraseIdx j, { invalid := o.invalid, overflow := o.overflow })

/-- The sum of a list of FP32 lanes, combined pair by pair. -/
def sumLanes : Nat → List Word → Flags → Word × Flags
  | 0, l, f => (l.headD 0, f)
  | n + 1, l, f =>
    if l.length ≤ 1 then (l.headD 0, f)
    else
      let r := combineAt n l
      sumLanes n r.1 (f.or r.2)

/-- RSUM over the lanes. -/
def reduceSum (f : VFmt) (l : List Word) : Word × Flags :=
  if f.isFloat then
    let r := sumLanes l.length l {}
    let q := f.narrowFloat r.1
    (q.1, r.2.or q.2)
  else f.narrowInt (l.foldl (fun a x => a + x) (0 : Word)).toInt

/-- RMAX and RMIN over the lanes: a function of the lanes alone (R83). -/
def reduceExtremum (wantMax : Bool) (f : VFmt) (l : List Word) : Word × Flags :=
  match l with
  | [] => (0, {})
  | a :: r =>
    if f.isFloat then f.resultOf (Fp.extremum wantMax (a :: r)) ((a :: r).all Fp.isFinite)
    else f.narrowInt (r.foldl (fun m x => if wantMax then Max.max m x.toInt else Min.min m x.toInt)
      a.toInt)

/-! ## The quantiser (R70, R71) -/

/-- A quantised row: codes, scale, zero point, row_flags and conditions. -/
structure Quantised where
  codes : List Nat
  scale : Word
  zero : Nat
  nonfinite : Bool
  allZero : Bool
  flags : Flags
deriving DecidableEq, Repr

/-- The largest magnitude over the finite lanes, 0 without one. -/
def finiteMax (l : List Word) : Nat :=
  (l.filter Fp.isFinite).foldl (fun m x => Nat.max m (Fp.magBits x)) 0

/-- True when an element, finite or infinite, is below zero. -/
def rowNegative (l : List Word) : Bool :=
  l.any fun x => Fp.neg x && !Fp.isNan x && !Fp.isZero x

/-- The code of one element: `lo`, `hi` and `z` are those of the row's rule, `dead` is set when every
finite element takes the zero point. -/
def quantCode (lo hi : Int) (z : Int) (scale : Word) (dead : Bool) (x : Word) : Int × Flags :=
  if Fp.isNan x then (z, { nonfinite := true })
  else if Fp.isInf x then (if Fp.neg x then lo else hi, { nonfinite := true })
  else if dead then (z, {})
  else
    let q := Fp.div x scale
    let v := (if Fp.isInf q.bits then (if Fp.neg x then lo - 1 else hi + 1)
      else Fp.roundAway q.bits + z)
    (clampInt lo hi v, { saturated := decide (clampInt lo hi v ≠ v), invalid := q.invalid
                         overflow := q.overflow })

/-- The quantiser on a row of 256 FP32 lanes, into U8Z or I8. -/
def quantise (u8z : Bool) (l : List Word) : Quantised :=
  let m := finiteMax l
  let signedRow := !u8z || rowNegative l
  let q := Fp.divBits (Fp.ofMag false m) (Fp.ofInt (if signedRow then 127 else 255))
  let dead := decide (m = 0) || Fp.isZero q
  let scale := if dead then Fp.one else q
  let z : Int := if u8z && signedRow then 128 else 0
  let lo : Int := if u8z then (if signedRow then 1 else 0) else -127
  let hi : Int := if u8z then 255 else 127
  let cs := l.map fun x => quantCode lo hi z scale dead x
  let nf := l.any fun x => !Fp.isFinite x
  { codes := cs.map fun c => wrapNat 8 c.1, scale := scale, zero := z.toNat, nonfinite := nf
    allZero := l.all Fp.isZero, flags := flagsOf cs }

/-! ## Weight encoding (R67) -/

/-- |q - c| of a finite FP32 quotient and an integer codebook entry, in units of 2^-149. -/
def codeGap (q : Word) (c : Int) : Nat :=
  (Fp.sgnSig q * (Fp.pow2 (Fp.expOf q + 149) : Int) - c * (2 ^ 149 : Nat)).natAbs

/-- The index of the first entry of a codebook that is least under `key`. -/
def argMin (key : Int → Int) (cb : List Int) : Nat :=
  ((cb.zipIdx).foldl (fun (m : Option (Int × Nat)) e =>
    match m with
    | none => some (key e.1, e.2)
    | some x => if key e.1 < x.1 then some (key e.1, e.2) else some x) none).elim 0 (·.2)

/-- The code of an FP32 weight under a channel scale. `fmt` is that of Table 3.3: 1 Q2P, 2 Q4P, 3 I4S,
4 I8S; `cb` is the format's codebook. -/
def encodeWeight (fmt : Nat) (cb : List Int) (scale w : Word) : Nat × Flags :=
  let q := Fp.div w scale
  let fl : Flags := { invalid := q.invalid, overflow := q.overflow }
  if fmt ≤ 2 then
    (if Fp.isNan q.bits then 0
     else if Fp.isInf q.bits then argMin (fun c => if Fp.neg q.bits then c else -c) cb
     else argMin (fun c => (codeGap q.bits c : Int)) cb, fl)
  else
    let lo : Int := if fmt = 3 then -8 else -128
    let hi : Int := if fmt = 3 then 7 else 127
    (wrapNat (if fmt = 3 then 4 else 8) (Fp.toIntSat lo hi q.bits),
     { fl with saturated := Fp.satChanged lo hi q.bits })

end Sys2Proof.Machine
end

