-- ==== Sys2Proof/Machine/Operands.lean ====
section
/-! DEFINITION. The operand forms of a bench program: step words, vector words, address generators, the
headers and blocks that arrays and vector words read, and the accesses that a bench makes to T0 and to
the tensor space (Tables 3.2-3.4, 4.2, 5.1-5.6, R121, R122, R165). -/

namespace Sys2Proof.Machine

/-! ## Step words (Tables 5.1 and 5.3) -/

/-- A step word taken apart. -/
structure StepWord where
  flow : Nat
  target : Nat
  loopSel : Nat
  fence : Bool
  gateWait : Bool
  routePop : Bool
  skipMode : Nat
  skipLen : Nat
  routeLsb : Nat
  routeWidth : Nat
  jtSel : Nat
  loopCount : Nat
  loopSetSel : Nat
  loopSetEn : Bool
  crSel : Nat
  reqGroup : Nat
  raiseMask : Nat
  waitMask : Nat
  raiseCount : Nat
  arrayOp : Nat
  arrayMask : Nat
  fmt : Nat
  bank : Nat
  srcAg : Nat
  dstAg : Nat
  mode : Bool
  rowFirst : Nat
  accFirst : Nat
  n : Nat
  nSrc : Nat
  vecLaunch : Bool
  vecEntry : Nat
  vecAg : Nat
  vecWait : Bool
  walkLaunch : Bool
  walkAg : Nat
  walkWait : Bool
  agCfgEn : Bool
  agCfgSel : Nat
  agCfgIndex : Nat
  syncOp : Nat
  syncSel : Nat
deriving DecidableEq, Repr

/-- The fields of a step word (Table 5.1). -/
def stepOf (w : Nat) : StepWord :=
  { flow := bitsOf w 3 0, target := bitsOf w 17 4, loopSel := bitsOf w 19 18, fence := bitOf w 20
    gateWait := bitOf w 21, routePop := bitOf w 22, skipMode := bitsOf w 24 23
    skipLen := bitsOf w 29 25, routeLsb := bitsOf w 37 32, routeWidth := bitsOf w 40 38
    jtSel := bitsOf w 46 41, loopCount := bitsOf w 71 48, loopSetSel := bitsOf w 73 72
    loopSetEn := bitOf w 74, crSel := bitsOf w 76 75, reqGroup := bitsOf w 81 80
    raiseMask := bitsOf w 97 82, waitMask := bitsOf w 113 98, raiseCount := bitsOf w 121 114
    arrayOp := bitsOf w 129 128, arrayMask := bitsOf w 133 130, fmt := bitsOf w 136 134
    bank := bitsOf w 138 137, srcAg := bitsOf w 140 139, dstAg := bitsOf w 142 141
    mode := bitOf w 143, rowFirst := bitsOf w 151 144, accFirst := bitsOf w 159 152
    n := bitsOf w 168 160, nSrc := bitsOf w 170 169, vecLaunch := bitOf w 192
    vecEntry := bitsOf w 205 193, vecAg := bitsOf w 207 206, vecWait := bitOf w 208
    walkLaunch := bitOf w 209, walkAg := bitsOf w 211 210, walkWait := bitOf w 212
    agCfgEn := bitOf w 213, agCfgSel := bitsOf w 215 214, agCfgIndex := bitsOf w 223 216
    syncOp := bitsOf w 225 224, syncSel := bitsOf w 230 226 }

/-- The step that bench `b` stands at. -/
def Bench.step (x : Bench) : StepWord := stepOf (tget 0 x.steps x.seq.pc).toNat

/-! ## Vector words (Tables 5.5 and 5.7, R471) -/

/-- A vector word taken apart. -/
structure VecWord where
  opcode : Nat
  vfmt : Nat
  dst : Nat
  srcA : Nat
  srcB : Nat
  srcC : Nat
  last : Bool
  imm : Nat
deriving DecidableEq, Repr

/-- The fields of a vector word (Table 5.5). -/
def vecOf (w : Nat) : VecWord :=
  { opcode := bitsOf w 7 0, vfmt := bitsOf w 10 8, dst := bitsOf w 15 11, srcA := bitsOf w 20 16
    srcB := bitsOf w 25 21, srcC := bitsOf w 30 26, last := bitOf w 31, imm := bitsOf w 63 32 }

/-- Opcodes that U8Z may stand in: LD, ST, CVT and QUANT (R82). -/
def u8zOpcode (o : Nat) : Bool := o == 0x01 || o == 0x02 || o == 0x20 || o == 0x30

/-- Opcodes of Table 5.7. -/
def knownOpcode (o : Nat) : Bool :=
  o == 0x01 || o == 0x02 || (decide (0x10 ≤ o) && decide (o ≤ 0x1B)) || o == 0x20 ||
    (decide (0x28 ≤ o) && decide (o ≤ 0x2A)) || o == 0x30 || o == 0x31 || o == 0x38 || o == 0x39 ||
    o == 0x3F

/-- True when a vector word breaks no rule that its bits alone decide (R82, R136, R137, R150, R471). -/
def VecWord.valid (w : VecWord) : Bool :=
  knownOpcode w.opcode && decide (w.vfmt ≤ 5) && (w.vfmt != 5 || u8zOpcode w.opcode) &&
    (!(decide (0x18 ≤ w.opcode) && decide (w.opcode ≤ 0x1B)) || decide (w.vfmt ≤ 1)) &&
    (w.opcode != 0x20 || decide (w.srcC ≤ 5)) &&
    (w.opcode != 0x30 || (decide (4 ≤ w.vfmt) && decide (w.srcC ≤ 1))) &&
    (w.opcode != 0x31 || (w.vfmt == 0 && decide (w.srcC ≤ 1))) &&
    (w.opcode != 0x38 || decide (w.srcC ≤ 1))

/-- The format of a valid vector word. -/
def VecWord.fmt (w : VecWord) : VFmt := (vfmtOf w.vfmt).getD .fp32

/-- The 256 lanes of vector register `r`. -/
def VectorUnit.lanes (v : VectorUnit) (r : Nat) : List Word :=
  (List.range 256).map fun i => tget 0 (tget [] v.regs r) i

/-- The vector unit with the lanes of register `r` written. -/
def VectorUnit.setLanes (v : VectorUnit) (r : Nat) (l : List Word) : VectorUnit :=
  { v with regs := tset v.regs r (l.zipIdx.map fun e => (e.2, e.1)) }

/-! ## Address generators (Table 5.4, R121, R122) -/

/-- The fields of an address generator descriptor. -/
def agOf (w : Nat) : AddrGen :=
  { space := bitsOf w 7 0, param := bitsOf w 15 8, laneStride := signed 32 (bitsOf w 63 32)
    base := signed 64 (bitsOf w 127 64)
    stride := (List.range 4).map fun i => signed 32 (bitsOf w (159 + 32 * i) (128 + 32 * i)) }

/-- The address that a generator gives: the exact sum of R121. -/
def AddrGen.sum (g : AddrGen) (params : List Int) (idx : List Nat) (lane : Nat) : Int :=
  g.base + (if g.param = 0 then 0 else params.getD (g.param - 1) 0) +
    ((List.range 4).foldl (fun t i => t + g.stride.getD i 0 * (idx.getD i 0 : Int)) 0) +
    g.laneStride * (lane : Int)

/-- Bytes of T0 and of the tensor space (R122). -/
def spaceSize (space : Nat) : Nat := if space = 1 then 0x800000 else 2 ^ 48

/-- The address of a generator within the range of its space and aligned (R122), or none: fault 0x0B. A param above
8 breaks Table 5.4 and gives that fault too, and reserved bytes that are not zero are ignored (DESIGN CHOICE,
notes/assumptions/103.md). -/
def AddrGen.address (g : AddrGen) (params : List Int) (idx : List Nat) (lane align : Nat) :
    Option (Nat × Nat) :=
  let a := g.sum params idx lane
  if (g.space = 1 ∨ g.space = 2) ∧ g.param ≤ 8 ∧ 0 ≤ a ∧ a < (spaceSize g.space : Int) ∧
      a.toNat % align = 0 then some (g.space, a.toNat) else none

/-- The address that generator `ag` of bench `b` gives for a lane; none when it is unloaded or breaks
R122. -/
def State.agAddress (s : State) (b ag lane align : Nat) : Option (Nat × Nat) :=
  let x := s.bench b
  match x.bind, (x.seq.ags.getD ag none) with
  | some g, some d => d.address (s.prog g.prog).params x.seq.loopIdx lane align
  | _, _ => none

/-! ## Weight tiles (Tables 3.2 and 3.3, R62-R67) -/

/-- Bytes of a weight tile header. -/
def tileHeader : Nat := 1088

/-- Row length of a weight format (Table 3.2). -/
def rowLen (fmt : Nat) : Nat := match fmt with | 1 => 64 | 2 => 128 | 3 => 128 | _ => 256

/-- Bits of a code. -/
def codeBits (fmt : Nat) : Nat := match fmt with | 1 => 2 | 2 => 4 | 3 => 4 | _ => 8

/-- Bytes of a tile image. -/
def imageBytes (fmt : Nat) : Nat := tileHeader + 256 * rowLen fmt

/-- Codebook entries that a format uses. -/
def codebookLen (fmt : Nat) : Nat := match fmt with | 1 => 4 | 2 => 16 | _ => 0

/-- The header check of R64 on the image at `a` of `m`. -/
def tileHeaderOk (m : Mem) (a : Nat) : Bool :=
  let fmt := m.getLe (a + 4) 1
  let k := m.getLe (a + 6) 2
  let n := m.getLe (a + 8) 2
  m.getLe a 4 == 0x711EC0DE && decide (1 ≤ fmt) && decide (fmt ≤ 4) &&
    decide (m.getLe (a + 5) 1 < 16) && decide (1 ≤ k) && decide (k ≤ 256) && decide (1 ≤ n) &&
    decide (n ≤ 256) && m.zeroAt (a + 10) 2 && m.zeroAt (a + 0x20) 32 &&
    m.zeroAt (a + 16 + codebookLen fmt) (16 - codebookLen fmt)

/-- The codebook of a header: the entries that its format uses, as signed bytes. -/
def codebookAt (m : Mem) (a : Nat) : List Int :=
  (List.range (codebookLen (m.getLe (a + 4) 1))).map fun j => signed 8 (m.getLe (a + 16 + j) 1)

/-- The registers that the table builder and the cells take of a tile image at `a`: the header of `h`, the codes of
`m`. -/
def tileOf (h m : Mem) (a : Nat) : TileRegs :=
  let fmt := h.getLe (a + 4) 1
  { format := fmt, blockPresent := h.getLe (a + 5) 1, kCount := h.getLe (a + 6) 2
    nCount := h.getLe (a + 8) 2, codebook := codebookAt h a
    scales := (List.range 256).map fun n => h.word (a + 64 + 4 * n)
    codes := Mem.copyIn [] 0 m (a + tileHeader) (256 * rowLen fmt) }

/-- The code register of cell (k, n) (Table 3.2). -/
def TileRegs.code (t : TileRegs) (k n : Nat) : Nat :=
  let w := codeBits t.format
  (Mem.get t.codes (k * rowLen t.format + n * w / 8)).toNat / 2 ^ (n * w % 8) % 2 ^ w

/-- True when reduction row `k` contributes (R66). -/
def TileRegs.rowLive (t : TileRegs) (k : Nat) : Bool :=
  decide (k < t.kCount) && bitOf t.blockPresent (k / 64)

/-- Passes of a format: digits of 2 bits in I4S and I8S (Table 3.5). -/
def passes (fmt : Nat) : Nat := match fmt with | 3 => 2 | 4 => 4 | _ => 1

/-- The product table that the builder of row `k` sends in a pass: entry `j` for the difference `d`
(R72). -/
def TileRegs.entry (t : TileRegs) (pass j : Nat) (d : Int) : Int :=
  if t.format ≤ 2 then t.codebook.getD j 0 * d
  else
    let v : Int := if pass = passes t.format - 1 ∧ 2 ≤ j then (j : Int) - 4 else (j : Int)
    v * (4 ^ pass : Nat) * d

/-- What a cell adds for one element: the entries that its code selects, over the passes (R72). -/
def TileRegs.product (t : TileRegs) (k n : Nat) (d : Int) : Int :=
  if t.rowLive k then
    (List.range (passes t.format)).foldl (fun u p =>
      u + t.entry p (if t.format ≤ 2 then t.code k n else t.code k n / 4 ^ p % 4) d) 0
  else 0

/-- The column sum of one token row: `ds` holds the 256 differences a - z (R72, R75). -/
def TileRegs.column (t : TileRegs) (n : Nat) (ds : List Int) : Int :=
  ds.zipIdx.foldl (fun u e => u + t.product e.2 n e.1) 0

/-- The partial sum that each cell forms as a token row passes it (R72, R75, R87): that of the reduction rows down
to its own. -/
def TileRegs.partials (t : TileRegs) (ds : List Int) : Table (BitVec 24) :=
  (List.range 65536).map fun i => (i, BitVec.ofInt 24 (t.column (i % 256) (ds.take (i / 256 + 1))))

/-- The partial-sum registers at the end of a code load: the codes have moved down through them, each to its row
(R90). -/
def TileRegs.shifted (t : TileRegs) : Table (BitVec 24) :=
  (List.range 65536).map fun i => (i, BitVec.ofNat 24 (t.code (i / 256) (i % 256)))

/-! ## Activation tiles and row descriptors (Tables 3.4 and 4.2) -/

/-- The header checks of R97 on the activation tile at `a`, for a stream of `n` rows from row `f` into
accumulator rows from `acc`, in format `fmt`. -/
def actHeaderOk (m : Mem) (a f n acc fmt : Nat) : Bool :=
  m.getLe a 4 == 0xAC715EED && m.getLe (a + 5) 1 == 1 && m.zeroAt (a + 10) 2 &&
    m.zeroAt (a + 16) 240 && m.getLe (a + 8) 2 == m.getLe (a + 6) 2 + 255 &&
    decide (f + n ≤ m.getLe (a + 6) 2) && decide (acc + n ≤ 256) && m.getLe (a + 4) 1 == fmt

/-- Address of the descriptor of token row `t`. -/
def rowDesc (a t : Nat) : Nat := a + 0x100 + 8 * t

/-- Address of element `k` of token row `t` in the skewed layout (R95). -/
def element (a t k : Nat) : Nat := a + 0x900 + 256 * (t + k) + k

/-- The check of R69 as row `t` is fed in format `fmt`. -/
def rowOk (m : Mem) (a t fmt : Nat) : Bool :=
  m.getLe (rowDesc a t + 5) 1 == fmt && (fmt == 1 || m.getLe (rowDesc a t + 4) 1 == 0)

/-- The differences a - z of token row `t` (R72): U8Z elements are unsigned, I8 elements signed. -/
def rowDiffs (m : Mem) (a t fmt : Nat) : List Int :=
  (List.range 256).map fun k =>
    let v := m.getLe (element a t k) 1
    if fmt = 1 then (v : Int) - (m.getLe (rowDesc a t + 4) 1 : Int) else signed 8 v

/-- The 8 bytes of a row descriptor. -/
def descBytes (scale : Word) (zp fmt : Nat) (nonfinite allZero : Bool) : List Byte :=
  leBytes 4 scale.toNat ++ leBytes 1 zp ++ leBytes 1 fmt ++
    leBytes 1 (b2n nonfinite + 2 * b2n allZero) ++ [0]

/-! ## Drains (Table 5.6, R78-R81, R101, R147) -/

/-- A drain parameter block. -/
structure DrainBlock where
  ro : Word
  zo : Nat
  bias : Bool
  biasAddr : Nat
  descAddr : Nat
  mask : List Bool
deriving DecidableEq, Repr

/-- The block at `a`. -/
def drainBlockAt (m : Mem) (a : Nat) : DrainBlock :=
  { ro := m.word a, zo := m.getLe (a + 4) 1, bias := bitOf (m.getLe (a + 5) 1) 0
    biasAddr := m.getLe (a + 8) 4, descAddr := m.getLe (a + 12) 4
    mask := (List.range 256).map fun n => bitOf (m.getLe (a + 0x20 + n / 8) 1) (n % 8) }

/-- The checks of R147 on the block at `a` for output format `fmt` (1 U8Z, 2 I8, 3 BF16, 4 FP32,
5 I32). -/
def drainBlockOk (m : Mem) (a fmt : Nat) : Bool :=
  let d := drainBlockAt m a
  decide (m.getLe (a + 5) 1 < 2) && m.zeroAt (a + 6) 2 && m.zeroAt (a + 16) 16 &&
    decide (d.biasAddr % 64 = 0) && decide (d.descAddr % 8 = 0) && (d.zo == 0 || fmt == 1) &&
    (d.biasAddr == 0 || d.bias) && (d.descAddr == 0 || decide (fmt ≤ 2))

/-- Bytes of an output element of a drain. -/
def drainBytes (fmt : Nat) : Nat := match fmt with | 1 => 1 | 2 => 1 | 3 => 2 | _ => 4

/-- One drained value: its bits, whether y was finite, and its conditions. `u` is none where the row has
no token scale or the bank no channel scales (R80). -/
structure Drained where
  bits : Nat
  finite : Bool
  clamped : Bool
  flags : Flags
deriving DecidableEq, Repr

/-- The drain of one accumulator (R78, R79): `scales` are s_t and s_c[n]. -/
def drainValue (fmt : Nat) (ro : Word) (zo : Nat) (bias : Word) (scales : Option (Word × Word))
    (acc : Word) : Drained :=
  if 5 ≤ fmt then { bits := acc.toNat, finite := true, clamped := false, flags := {} }
  else
    let u := match scales with
      | none => ({ bits := 0, invalid := false, overflow := false } : Fp.Out)
      | some p => Fp.mul p.1 p.2
    let y := match scales with
      | none => ({ bits := if Fp.isNan bias then Fp.qnan else bias, invalid := Fp.isNan bias, overflow := false } :
          Fp.Out)
      | some _ => Fp.fma (Fp.ofInt acc.toInt) u.bits bias
    let fl : Flags := { invalid := u.invalid || y.invalid, overflow := u.overflow || y.overflow }
    if fmt = 4 then { bits := y.bits.toNat, finite := Fp.isFinite y.bits, clamped := false, flags := fl }
    else if fmt = 3 then
      let r := VFmt.narrowFloat .bf16 y.bits
      { bits := r.1.toNat / 65536, finite := Fp.isFinite y.bits, clamped := false, flags := fl.or r.2 }
    else
      let p := Fp.mul y.bits ro
      let lo : Int := if fmt = 1 then 0 else -128
      let hi : Int := if fmt = 1 then 255 else 127
      let z : Int := if fmt = 1 then zo else 0
      let v : Int := if Fp.isNan p.bits then z
        else if Fp.isInf p.bits then (if Fp.neg p.bits then lo - 1 else hi + 1)
        else Fp.roundAway p.bits + z
      let c := decide (clampInt lo hi v ≠ v)
      { bits := wrapNat 8 (clampInt lo hi v), finite := Fp.isFinite y.bits, clamped := c
        flags := (fl.or { invalid := p.invalid, overflow := p.overflow }).or { saturated := c } }

/-! ## Accesses of a bench (R122, R165, R170, R368) -/

/-- The place from which a bench's access or fault comes: bench, step and the unit that works there. -/
structure Site where
  bench : Nat
  pc : Nat
  /-- True when the walker works, false for the vector unit and the arrays. -/
  walker : Bool := false
  /-- The unit among those of `Waiter.unit` that are not the walker. -/
  unit : Nat := 0
deriving DecidableEq, Repr

/-- The site as a waiter. -/
def Site.waiter (x : Site) : Waiter := .unit x.bench (if x.walker then 1 else x.unit)

/-- The unit of a site stops. -/
def State.unitStop (s : State) (x : Site) : State :=
  s.modBench x.bench fun y =>
    if x.walker then { y with walker := { y.walker with launch := none, search := none } }
    else { y with vec := { y.vec with running := false } }

/-- A program fault found at a site (R145). -/
def State.siteFault (s : State) (x : Site) (code : Nat) : State :=
  (s.unitStop x).benchFault x.bench code x.pc

/-- Completion Dword 0 of a walker's abnormal end (R241): the logical bench and pc, code 0x00. -/
def State.siteDword (s : State) (x : Site) : Word :=
  faultDword 0 (((s.bench x.bench).bind.map (·.logical)).getD 0) x.pc

/-- What becomes of an access to the tensor space that is not made. -/
def State.accessFailed (x : Site) (r : Acc) (s : State) : State :=
  match r with
  | .ok => s
  | .wait => s
  | .bad => s.siteFault x 0x0B
  | .denied => s.siteFault x 0x0B
  | .lost => (s.unitStop x).benchEnd x.bench (.vendor 0xC0) 0
  | .poisoned => (s.unitStop x).benchEnd x.bench .unrecoveredRead (if x.walker then s.siteDword x else 0)
  | .exhausted c => (s.unitStop x).benchEnd x.bench (.vendor 0xC2) (BitVec.ofNat 32 c)

/-- The function that bench `b` works for. -/
def State.benchFn (s : State) (b : Nat) : Nat := ((s.bench b).bind.map (·.fn)).getD 0
/-- The program bound to bench `b`. -/
def State.benchProg (s : State) (b : Nat) : Nat := ((s.bench b).bind.map (·.prog)).getD 0

/-- `n` bytes at `a` of space `sp` read from site `x`, given to `k` as the memory that holds them; `load`
for an array LOAD. -/
def State.benchRead (s : State) (x : Site) (sp a n : Nat) (load : Bool) (k : Mem → State → State) :
    State :=
  if sp = 1 then
    if 0x800000 < a + n then s.siteFault x 0x0B
    else s.withT0 x.bench a n fun t => k (t.bench x.bench).t0 t
  else
    (s.hoistTouch (s.benchProg x.bench) (extentBase (addrDie a) (addrSlot a))).tsRead
      { bench := x.bench, die := some (benchDie x.bench), waiter := x.waiter } (s.benchFn x.bench) a n load
      (State.accessFailed x) fun t => k t.ts.mem t

/-- Bytes `bs` written at `a` of space `sp` from site `x`, then `k`. -/
def State.benchWrite (s : State) (x : Site) (sp a : Nat) (bs : List Byte) (k : State → State) : State :=
  if sp = 1 then
    if 0x800000 < a + bs.length then s.siteFault x 0x0B
    else s.writeT0 x.bench a bs.length (fun m => m.putBytes a bs) k
  else
    (s.hoistTouch (s.benchProg x.bench) (extentBase (addrDie a) (addrSlot a))).tsStore
      { bench := x.bench, die := some (benchDie x.bench), waiter := x.waiter } (s.benchFn x.bench) a bs.length
      (some (s.benchProg x.bench)) (fun m => m.putBytes a bs) (State.accessFailed x) k

/-- Several writes, one after another. -/
def State.benchWrites (x : Site) (sp : Nat) (k : State → State) : List (Nat × List Byte) → State → State
  | [], s => k s
  | e :: r, s => s.benchWrite x sp e.1 e.2 fun t => State.benchWrites x sp k r t

end Sys2Proof.Machine
end

