-- ==== Sys2Proof/Machine/CkptOps.lean ====
section
/-! DEFINITION. Checkpoint operations that commands, acknowledgements and resets share: the set, the
streams of a cut, their commits and their abandonment, the interval T and restores (R347-R363). -/

namespace Sys2Proof.Machine

/-! ## The set (R347, R348) -/

/-- Entries of the classes that are saved: SAVED and CURSOR. -/
def isSaved (e : SetEntry) : Bool := e.cls == 1 || e.cls == 2

/-- The extent that an entry names. -/
def State.entryExtent (s : State) (e : SetEntry) : Extent := s.extent (addrDie e.addr) (addrSlot e.addr)

/-- True when the set names the extent in slot `j` of die `d`. -/
def State.inSet (s : State) (d j : Nat) : Bool :=
  s.ckpt.attached && s.ckpt.setEntries.any fun e => e.addr == extentBase d j

/-- Space tiles of an extent that holds some. -/
def Extent.tiles (e : Extent) : List Nat := if e.st = 1 ∨ e.st = 2 then List.range e.length else []

/-- Entries that are saved, in ascending address order. -/
def State.savedEntries (s : State) : List SetEntry :=
  sortBy (fun a b => decide (a.addr ≤ b.addr)) (s.ckpt.setEntries.filter isSaved)

/-- Every SAVED and CURSOR space tile of the set, in ascending address order. -/
def State.savedTiles (s : State) : List (Nat × Nat × Nat) :=
  s.savedEntries.flatMap fun e => (s.entryExtent e).tiles.map fun t =>
    (addrDie e.addr, addrSlot e.addr, t)

/-- The saved bytes (R348). -/
def State.savedBytes (s : State) : Nat := 65536 * s.savedTiles.length

/-- The functions that own set extents. -/
def State.setOwners (s : State) : List Nat :=
  (s.ckpt.setEntries.map fun e => (s.entryExtent e).owner).eraseDups

/-- True when a cut or a restore holds an execute command `i` of function `fn` (R350, R363). -/
def State.heldExecute (s : State) (i fn : Nat) : Bool :=
  (s.ckpt.phase == 1 || s.ckpt.phase == 3) && decide (s.ckpt.holdFrom ≤ i) && s.ckpt.holdFns.contains fn

/-- True when a cut holds a new host memory write of command `i` to address `a` (R350). -/
def State.heldWrite (s : State) (i a : Nat) : Bool :=
  s.ckpt.phase == 1 && decide (s.ckpt.holdFrom ≤ i) && s.inSet (addrDie a) (addrSlot a)

/-! ## When cuts are taken (R361, R362) -/

/-- KCLK ticks in a millisecond. -/
def ticksPerMs : Nat := 3000

/-- The module's time in ms since the hoist die's counter started. -/
def State.nowMs (s : State) : Nat := s.now / ticksPerMs

/-- Intervals in ms between the observed interruptions, newest first. -/
def gaps : List Nat → List Nat
  | a :: b :: r => (a - b) / ticksPerMs :: gaps (b :: r)
  | _ => []

/-- M in ms: the mean of the last 16 intervals, the prior standing for each one missing. -/
def Ckpt.meanInterval (c : Ckpt) : Nat :=
  let g := (gaps c.interruptions).take 16
  (g.foldl (· + ·) 0 + (16 - g.length) * (1000 * c.prior)) / 16

/-- C in ms: the mean cost of the last 4 committed buddy checkpoints, 1 s before the first. -/
def Ckpt.cost (c : Ckpt) : Nat :=
  if c.costs.isEmpty then 1000 else c.costs.foldl (· + ·) 0 / c.costs.length

/-- T in ms. -/
def Ckpt.interval (c : Ckpt) : Nat :=
  Nat.min 3600000 (Nat.max 10000 (isqrt (2 * c.cost * c.meanInterval)))

/-- The flash floor in ms: the larger of the configured floor and F. -/
def State.flashFloor (s : State) : Nat :=
  Nat.max (1000 * s.ckpt.floor) (s.savedBytes * 86400000 / 19570000000000)

/-- True when a flash stream is allowed now. -/
def State.flashAllowed (s : State) : Bool :=
  match s.ckpt.lastFlashAt with
  | none => true
  | some t => decide (s.flashFloor ≤ (s.now - t) / ticksPerMs)

/-- An interruption observed at this time. -/
def State.interruption (s : State) : State :=
  s.modCkpt fun c => { c with interruptions := (s.now :: c.interruptions).take 17 }

/-! ## History and waits (R365, R367) -/

/-- The history entry of cut `n`. -/
def Ckpt.record (c : Ckpt) (n : Nat) : Option CutRecord := c.history.find? fun r => r.number == n

/-- The history entry of cut `n` changed. -/
def Ckpt.modRecord (c : Ckpt) (n : Nat) (f : CutRecord → CutRecord) : Ckpt :=
  { c with history := c.history.map fun r => if r.number = n then f r else r }

/-- True when a stream of cut `n` runs. -/
def Ckpt.streaming (c : Ckpt) (n : Nat) : Bool :=
  (c.buddy.any fun b => b.cut == n) || (c.flash.any fun b => b.cut == n)

/-- The completion of a wait for cut `n`, none while a stream of it runs. -/
def Ckpt.waitResult (c : Ckpt) (n : Nat) : Option (Status × Word) :=
  match c.record n with
  | none => some (.vendor 0xC7, 0)
  | some r =>
    if r.outcome = 0xFF then none
    else if r.outcome = 0 then some (.success, BitVec.ofNat 32 (r.streams % 4))
    else some (.vendor 0xC7, 0)

/-- Checkpoint Wait commands whose cut has ended complete. -/
def State.serveCkptWaits (s : State) : State :=
  s.host.ops.foldl (fun t o =>
    match o.kind with
    | .ckptWait n =>
      match t.ckpt.waitResult n with
      | some (st, dw) => t.finish o.id st dw
      | none => t
    | _ => t) s

/-- A stream of cut `n`, begun at `since`, has ended with `code` (0 committed). -/
def State.streamEnded (s : State) (n since code : Nat) : State :=
  let ms := (s.now - since) / ticksPerMs
  (s.modCkpt fun c =>
    let done := !c.streaming n
    c.modRecord n fun r => { r with
      outcome := if code ≠ 0 ∧ r.outcome = 0xFF then code
        else if done ∧ r.outcome = 0xFF then 0 else r.outcome
      time := if done then ms else r.time }).serveCkptWaits

/-! ## Streams (R353, R355-R358) -/

/-- True when a stream still has a tile to take. -/
def Ckpt.needs (c : Ckpt) (x : Nat × Nat × Nat) : Bool :=
  (c.buddy.any fun b => b.todo.contains x) || (c.flash.any fun b => b.todo.contains x)

/-- The wait of the writes for a write-protected tile ends: it counts in the stall figures of the cut (Table 14.7)
and reaches the monitors (source 0x09 of Table 18.2), in ns. -/
def State.touchEnds (s : State) (d j t : Nat) : State :=
  match (s.die d).touched.find? fun w => w.slot == j && w.tile == t with
  | none => s
  | some w =>
    let ns := nsSince s.now w.since
    ((s.modDie d fun x => { x with
      touched := x.touched.filter fun v => !(v.slot == j && v.tile == t) }).modCkpt fun c => { c with
        stallMax := Nat.max c.stallMax ns, stallTotal := c.stallTotal + ns }).observe 0x09 d (ns : Nat)

/-- A tile that no stream needs any more: its protection is lifted, its shadow page freed and a first-touch copy of it
ended (R353, R356). -/
def State.releaseTile (s : State) (x : Nat × Nat × Nat) : State :=
  if s.ckpt.needs x then s
  else
    let a := tileAddr x.1 x.2.1 x.2.2
    (((s.touchEnds x.1 x.2.1 x.2.2).modExtent x.1 x.2.1 fun e => { e with
      writeProtect := e.writeProtect.filter fun t => t != x.2.2 }).modDie x.1 fun y => { y with
        shadowMem := if s.ckpt.shadow.contains x then y.shadowMem.clear a 65536 else y.shadowMem }).modCkpt fun c =>
          { c with shadow := c.shadow.filter fun y => y != x }

/-- The contents of a tile as of the cut: its shadow copy where it has one. -/
def State.tileContents (s : State) (x : Nat × Nat × Nat) : Mem :=
  let a := tileAddr x.1 x.2.1 x.2.2
  if s.ckpt.shadow.contains x then (s.die x.1).shadowMem.slice a 65536 0
  else s.ts.mem.slice a 65536 0

/-- The tile that a stream takes next: shadowed tiles first, in the order in which they were shadowed,
then in ascending address order (R355, R356). -/
def State.nextTaken (s : State) (todo : List (Nat × Nat × Nat)) : Option (Nat × Nat × Nat) :=
  match s.ckpt.shadow.find? fun x => todo.contains x with
  | some x => some x
  | none => todo.head?

/-- Continues with `k` when a stream can read a tile: one in T1 needs its region awake, and an
uncorrectable word resets at its consumer's scope (R20, R368). -/
def State.streamRead (s : State) (x : Nat × Nat × Nat) (k : State → State) : State :=
  let e := s.extent x.1 x.2.1
  let a := tileAddr x.1 x.2.1 x.2.2
  if s.ckpt.shadow.contains x then k s
  else
    let t := e.servedFrom x.2.2
    let g := 4 * x.1 + e.slice
    if t = 1 ∧ (s.region g).st = .reset then s
    else if t = 1 ∧ (s.region g).st ≠ .active then s.wake g
    else if t = 2 ∧ ((s.die x.1).poison.any fun w =>
        decide (a ≤ 256 * w) && decide (256 * w < a + 65536)) = true then s.dramConsumed x.1 a
    else
      match s.eccRead (tierMemory t) 0 a 65536 with
      | (s1, none) => k s1
      | (s1, some w) => if t = 1 then s1.sramError g 0x02 0 w 0xFF else s1.dramConsumed x.1 w

/-- A frame written by cut `cut` into an image whose latest committed cut is `keep` (R357): it replaces
the frame of its tile that does not belong to that image. -/
def writeFrame (fs : List Frame) (keep : Nat) (f : Frame) : List Frame :=
  let mine := fs.filter fun g => g.addr == f.addr && decide (g.cut ≤ keep) && decide (0 < g.cut)
  let top := mine.foldl (fun m g => Nat.max m g.cut) 0
  (fs.filter fun g => g.addr != f.addr || (g.cut == top && decide (0 < top))) ++ [f]

/-- The manifest recorded with cut `n` in a list. -/
def manifestOf (l : List (Nat × List SetEntry)) (n : Nat) : Option (List SetEntry) :=
  (l.find? fun e => e.1 == n).map (·.2)

/-- The buddy stream sends what the retransmit store has room for, and after the last tile the recorded set (R364) and its
commit message (R356). -/
def State.pumpBuddy : Nat → State → State
  | 0, s => s
  | n + 1, s =>
    match s.ckpt.buddy with
    | none => s
    | some b =>
      if b.committing then s
      else
        match s.nextTaken b.todo with
        | none =>
          let part := fun k : MsgKind => ({ dst := s.fabric.partner, seq := 0, addr := 0, payload := Buf.none
                                            kind := k } : Msg)
          (((s.modCkpt fun c => { c with buddy := some { b with committing := true } }).sendMsg
            (part (.manifest b.cut ((manifestOf s.ckpt.manifests b.cut).getD [])))).sendMsg (part (.commit b.cut)))
        | some x =>
          if s.storeRoom x.1 65536 = false then s
          else s.streamRead x fun t =>
            let data := t.tileContents x
            let a := tileAddr x.1 x.2.1 x.2.2
            let t1 := t.modCkpt fun c => { c with
              buddy := some { b with todo := b.todo.filter fun y => y != x }
              buddyPrevious := if b.todo.length = b.tiles.length then 0 else c.buddyPrevious
              buddyFrames := writeFrame c.buddyFrames c.buddyCommitted { addr := a, cut := b.cut, data := data } }
            State.pumpBuddy n ((t1.releaseTile x).sendMsg
              { dst := s.fabric.partner, seq := 0, addr := a, payload := { len := 65536, bytes := data }
                kind := .tile b.cut, die := x.1 })

/-- The face die and DRAM frame of its stacks that hold a frame of the reserve (R470). -/
def reservePlace (f : Frame) : Nat × Nat :=
  (Config.reserveFrame f.addr f.cut / 1302082 % 2, Config.reserveFrame f.addr f.cut % 1302082)

/-- True when the poison table's codeword `w` lies in DRAM frame `k`, by its data-page address (R470). -/
def codewordOfFrame (k w : Nat) : Bool := w / 256 == 2 ^ 47 + k

/-- A frame read from the reserve: one that holds an uncorrectable codeword arrives marked poisoned, and selects no
reset (R359, R23). -/
def State.readFrame (s : State) (f : Frame) : Frame :=
  { f with poisoned := f.poisoned ||
      (s.die (reservePlace f).1).poison.any (codewordOfFrame (reservePlace f).2) }

/-- A frame of the reserve written whole: its codewords leave the poison table (R376). -/
def State.frameWritten (s : State) (f : Frame) : State :=
  s.modDie (reservePlace f).1 fun x => { x with
    poison := x.poison.filter fun w => !codewordOfFrame (reservePlace f).2 w }

/-- The messages of the partner's image that a spare has asked for sent as the retransmit store has room (R364). -/
def State.pumpImage : Nat → State → State
  | 0, s => s
  | n + 1, s =>
    match s.ckpt.serving with
    | [] => s
    | m :: r =>
      if s.storeRoom m.die m.payload.len then
        State.pumpImage n ((s.modCkpt fun c => { c with serving := r }).sendMsg m)
      else s

/-- The image held for the partner asked for by the spare `src` of its board: every frame, the recorded sets and the
committed cuts (R364 step 2). -/
def State.serveImage (s : State) (src : Nat) : State :=
  let part := fun k : MsgKind => ({ dst := src, seq := 0, addr := 0, payload := Buf.none, kind := k } : Msg)
  s.modCkpt fun c => { c with
    serving := c.heldFrames.map (fun f => { dst := src, seq := 0, addr := f.addr, kind := .tile f.cut
                                            payload := { len := 65536, bytes := f.data }, die := addrDie f.addr
                                            poisoned := (s.readFrame f).poisoned }) ++
      c.heldManifests.map (fun e => part (.manifest e.1 e.2)) ++ [part (.commit c.heldCommitted)] }

/-- The streams carried on as far as they go. -/
def State.stream (s : State) : State :=
  let t := match s.ckpt.buddy with
    | none => s
    | some b => s.pumpBuddy (b.todo.length + 1)
  t.pumpImage t.ckpt.serving.length

/-- The buddy checkpoint of the running stream committed (R356, R361). -/
def State.buddyCommit (s : State) (n : Nat) : State :=
  match s.ckpt.buddy with
  | none => s
  | some b =>
    if b.cut ≠ n then s
    else
      (s.modCkpt fun c => { c with
        buddy := none, buddyPrevious := c.buddyCommitted, buddyCommitted := n
        costs := (((s.now - b.since) / ticksPerMs) :: c.costs).take 4 }).streamEnded n b.since 0

/-- A stream abandoned (R358): its remaining tiles are released unless the other stream needs them, the
tiles of a buddy stream are owed to the next cut, and event 0x41 is raised. -/
def State.abandonStream (s : State) (isBuddy : Bool) (code : Nat) : State :=
  match (if isBuddy then s.ckpt.buddy else s.ckpt.flash) with
  | none => s
  | some b =>
    let s1 := s.modCkpt fun c => { c with
      buddy := if isBuddy then none else c.buddy
      flash := if isBuddy then c.flash else none
      owed := if isBuddy then c.owed ++ (b.tiles.filter fun x => !c.owed.contains x) else c.owed
      abandoned := c.abandoned + 1, lastAbandon := code }
    (((b.todo.foldl State.releaseTile s1).streamEnded b.cut b.since code)).raise 0x41 0xC5

/-- The partner holds no image of this module any more (R351, R358 reason 6): the next cut is full. -/
def State.partnerLost (s : State) : State :=
  (s.abandonStream true 0x06).modCkpt fun c => { c with
    nextFull := true, buddyFrames := [], buddyCommitted := 0, buddyPrevious := 0 }

/-- The image held for the partner is lost (R359): event 0x43, reported with the next acknowledgement. -/
def State.heldImageLost (s : State) : State :=
  if s.ckpt.heldFrames.isEmpty ∧ s.ckpt.heldCommitted = 0 then s
  else (s.modCkpt fun c => { c with
    heldFrames := [], heldManifests := [], heldCommitted := 0, heldPrevious := 0, heldLost := true
    serving := [] }).raise 0x43 0xC5

/-! ## The cut (R350) -/

/-- Steps 1 and 2 of cut `n` begin, for the command operation `op` if one asked for it. -/
def State.beginCut (s : State) (n : Nat) (op : Option Nat) (wantFlash : Bool) : State :=
  (s.modCkpt fun c => { c with
    phase := 1, cutOp := op, cutNumber := n, cutWantFlash := wantFlash, holdFns := s.setOwners
    holdFrom := s.host.nextOp }).modFabric fun f => { f with
      heldWrites := f.heldWrites.map fun w => { w with late := false } }

/-- True when an outstanding operation submitted before step 1 still stands in the way of step 3. -/
def State.cutBlockedBy (s : State) (o : Op) : Bool :=
  decide (o.id < s.ckpt.holdFrom) &&
    match o.kind with
    | .execute _ _ _ => s.ckpt.holdFns.contains o.src.fn
    | .scan _ => s.ckpt.holdFns.contains o.src.fn
    | .memWrite a _ => s.inSet (addrDie a) (addrSlot a)
    | .memCopy a _ _ _ toNvm => !toNvm && s.inSet (addrDie a) (addrSlot a)
    | _ => false

/-- True when step 2 has been reached: nothing that the cut waits for is outstanding, and the streams of
the cut before have ended. -/
def State.cutReady (s : State) : Bool :=
  s.ckpt.phase == 1 && !(s.host.ops.any s.cutBlockedBy) && s.ckpt.buddy.isNone && s.ckpt.flash.isNone &&
    !(s.fabric.heldWrites.any fun w => !w.late && s.inSet (addrDie w.addr) (addrSlot w.addr))

/-- The manifest as cut now, with what R347 records of every extent. -/
def State.recordedSet (s : State) : List SetEntry :=
  s.ckpt.setEntries.map fun e =>
    let x := s.entryExtent e
    { e with length := x.length, owner := x.owner, affinity := x.affinity, copyTier := x.copyTier
             pinned := x.pinned, shared := x.shared }

/-- True when a tile's dirty bit is set. -/
def State.tileDirty (s : State) (x : Nat × Nat × Nat) : Bool :=
  (s.extent x.1 x.2.1).pageDirty.contains x.2.2

/-- The write-protect bits of the send set set, and every dirty bit of the set extents cleared. -/
def State.protect (s : State) (sent : List (Nat × Nat × Nat)) : State :=
  s.ckpt.setEntries.foldl (fun t e =>
    let d := addrDie e.addr
    let j := addrSlot e.addr
    t.modExtent d j fun x => { x with
      pageDirty := []
      writeProtect := (List.range x.length).filter fun i => sent.contains (d, j, i) }) s

/-- The recorded sets that an image or a stream may still need (R347, R357, R360). -/
def Ckpt.keptManifests (c : Ckpt) : List (Nat × List SetEntry) :=
  c.manifests.filter fun e => [c.flashCut0, c.flashCut1, c.buddyCommitted, c.buddyPrevious].contains e.1

/-- Steps 3 and 4 of a cut (R350, R351, R362): the send set is protected, dirty bits are cleared, the
streams begin and what was held is released. Without a partner in the live graph the tiles stay owed. -/
def State.takeCut (s : State) : State :=
  let c := s.ckpt
  let flash := c.cutWantFlash && s.flashAllowed
  let full := c.nextFull
  let every := s.savedTiles
  let sent := if full || flash then every else every.filter fun x => s.tileDirty x || c.owed.contains x
  let live := s.partnerLive
  let n := c.cutNumber
  let s1 := s.protect (if live || flash then sent else [])
  let s2 := s1.modCkpt fun k => { k with
    phase := 0, cutOp := none, holdFns := []
    lastCut := n, nextFull := false
    owed := if live then [] else sent
    buddy := if live then some { cut := n, tiles := sent, todo := sent, since := s.now } else none
    flash := if flash then some { cut := n, tiles := every, todo := every, since := s.now } else none
    lastCutAt := s.now, lastFlashAt := if flash then some s.now else k.lastFlashAt
    dueRaised := false, shadowPeak := 0, shadowRaised := false, stallMax := 0, stallTotal := 0
    manifests := (n, s.recordedSet) :: k.keptManifests
    localFrames := [], localCuts := [], localManifests := []
    history := (({ number := n
                   streams := b2n live + 2 * b2n flash + 4 * b2n full
                   outcome := if live || flash then 0xFF else 0 } : CutRecord) :: k.history).take 16 }
  let s3 := match c.cutOp with
    | none => s2
    | some op => s2.finish op .success (BitVec.ofNat 32 (b2n flash + 2 * b2n full))
  (if flash then s3.modFlash fun f => { f with ckptNext := [] } else s3).stream

/-! ## Restore (R363) -/

/-- An image to restore from: the frames, the cut as of which they are read, and the recorded set. -/
structure Image where
  frames : List Frame
  entries : List SetEntry
  /-- 1 partner, 2 flash, 3 local copy. -/
  source : Nat
deriving DecidableEq, Repr

/-- The committed image of cut `n` at a source, if the source holds one. -/
def Ckpt.imageAt (c : Ckpt) (n source : Nat) : Option Image :=
  match source with
  | 3 =>
    if c.localCuts.contains n then
      (manifestOf c.localManifests n).map fun m => { frames := c.localFrames, entries := m, source := 3 }
    else none
  | 1 =>
    if n ≠ 0 ∧ (n = c.buddyCommitted ∨ n = c.buddyPrevious) then
      (manifestOf c.manifests n).map fun m => { frames := c.buddyFrames, entries := m, source := 1 }
    else none
  | _ =>
    let fs := if n = c.flashCut0 then some c.flashFrames0
      else if n = c.flashCut1 then some c.flashFrames1 else none
    match fs with
    | none => none
    | some fs => if n = 0 then none
      else (manifestOf c.manifests n).map fun m => { frames := fs, entries := m, source := 2 }

/-- An image read from this module's own reserve. -/
def State.readImage (s : State) (im : Image) : Image := { im with frames := im.frames.map s.readFrame }

/-- The image that a restore takes: source 0 tries the local copy, the partner and then the flash slots. -/
def State.imageFor (s : State) (n source : Nat) : Option Image :=
  let at1 := if s.partnerLive then s.ckpt.imageAt n 1 else none
  let at3 := (s.ckpt.imageAt n 3).map s.readImage
  match source with
  | 0 => at3.or (at1.or (s.ckpt.imageAt n 2))
  | 1 => at1
  | 3 => at3
  | _ => s.ckpt.imageAt n 2

/-- The frame of a tile in an image of cut `n`: the highest cut not above `n` (R357). -/
def frameOf (fs : List Frame) (n a : Nat) : Option Frame :=
  (fs.filter fun f => f.addr == a && decide (f.cut ≤ n) && decide (0 < f.cut)).foldl
    (fun (m : Option Frame) f =>
      match m with
      | none => some f
      | some g => if g.cut < f.cut then some f else some g) none

/-- True when an entry's slot is FREE or holds the extent that the cut recorded. -/
def State.restorable (s : State) (e : SetEntry) : Bool :=
  let x := s.entryExtent e
  x.st == 0 || ((x.st == 1 || x.st == 2) && x.length == e.length && x.owner == e.owner)

/-- The tier at or below the recorded one that has room for an extent created by a restore. -/
def State.restoreTier (s : State) (e : SetEntry) : Option Nat :=
  let d := addrDie e.addr
  [1, 2, 3].find? fun t => decide (e.copyTier ≤ t) && (t != 1 || decide (e.length ≤ t1Longest)) &&
    s.fits d t (s.sliceFor d e.affinity) e.length e.owner

/-- An extent created where its slot is FREE, with the recorded attributes. -/
def State.restoreExtent (s : State) (e : SetEntry) : State :=
  let d := addrDie e.addr
  let j := addrSlot e.addr
  if (s.entryExtent e).st ≠ 0 then s
  else (s.zeroExtent d j e.length).modDie d fun x => { x with
    slots := tset x.slots j { st := 1, length := e.length, copyTier := (s.restoreTier e).getD 3
                              owner := e.owner, affinity := e.affinity, pinned := e.pinned
                              shared := e.shared, slice := s.sliceFor d e.affinity
                              lastUse := s.dieNow d / 1000 } }

/-- The tiles of a saved entry written as of the cut; a poisoned frame marks its tile (R359). -/
def State.restoreTiles (s : State) (fs : List Frame) (n : Nat) (e : SetEntry) : State :=
  let d := addrDie e.addr
  let j := addrSlot e.addr
  if isSaved e then
    (List.range e.length).foldl (fun t i =>
      let a := tileAddr d j i
      match frameOf fs n a with
      | none => t.tsPut { waiter := .op 0 } a 65536 fun m => m.clear a 65536
      | some f =>
        let u := t.tsPut { waiter := .op 0 } a 65536 fun m => m.copyIn a f.data 0 65536
        if f.poisoned then u.modExtent d j fun x => { x with poison := insSorted i x.poison } else u) s
  else s

/-- A restore tried for operation `o` (R363): it waits for the executes of the owning functions. -/
def State.tryRestore (s : State) (o : Op) (n source : Nat) : State :=
  match s.imageFor n source with
  | none => (s.modCkpt fun c => { c with phase := 0, holdFns := [] }).finish o.id (.vendor 0xC7)
  | some im =>
    let owners := im.entries.map (·.owner)
    if (s.host.ops.any fun p => decide (p.id < o.id) &&
        match p.kind with
        | .execute _ _ _ => owners.contains p.src.fn
        | .scan _ => owners.contains p.src.fn
        | _ => false) || (im.entries.any fun e => isSaved e && (s.entryExtent e).st == 2) ||
        s.ckpt.buddy.isSome || s.ckpt.flash.isSome
    then s.modCkpt fun c => { c with holdFns := owners }
    else if !(im.entries.all fun e => s.restorable e &&
        ((s.entryExtent e).st != 0 || (s.restoreTier e).isSome)) then
      (s.modCkpt fun c => { c with phase := 0, holdFns := [] }).finish o.id .commandSequenceError
    else
      let s1 := im.entries.foldl State.restoreExtent s
      let s2 := im.entries.foldl (fun t e => t.restoreTiles im.frames n e) s1
      let s3 := s2.modCkpt fun c => { c with
        phase := 0, holdFns := [], attached := true, fn := o.src.fn, setEntries := im.entries
        nextFull := true, owed := [], lastCut := Nat.max c.lastCut n
        localFrames := if im.source = 3 then [] else c.localFrames
        localCuts := if im.source = 3 then [] else c.localCuts
        localManifests := if im.source = 3 then [] else c.localManifests }
      s3.interruption.finish o.id .success
        (BitVec.ofNat 32 (im.entries.filter fun e => e.cls == 3).length)

end Sys2Proof.Machine
end

