-- ==== Sys2Proof/Machine/Delivery.lean ====
section
/-! DEFINITION. The delivery of messages from other modules: the flits that have arrived, acknowledgements, forwarded
writes and signals, and the partner's checkpoint image (R336, R340-R344, R357, R359). -/

namespace Sys2Proof.Machine

/-! ## Flits that have arrived -/

/-- True when an identifier names this module. -/
def Fabric.mine (f : Fabric) (dst : Nat) : Bool :=
  dst == f.ident || (f.spare && dst == spareIdent f.board f.spareIndex)

/-- Flits for which `p` holds dealt with. -/
def State.consume (s : State) (p : Flit → Bool) : State :=
  s.modFabric fun f => { f with arrived := f.arrived.filter fun x => !p x }

/-- The flits of message `seq` from `src` dealt with. -/
def State.consumeMsg (s : State) (src seq : Nat) : State :=
  s.consume fun x => x.kind == 1 && x.src == src && x.msgSeq == seq

/-- True when `x` is the flit `y` of a message, whatever path and epoch it came by. -/
def Flit.carries (x y : Flit) : Bool :=
  x.kind == 1 && x.src == y.src && x.msgSeq == y.msgSeq && x.address == y.address && x.payload == y.payload &&
    x.last == y.last && x.signal == y.signal

/-- True when every flit of a message has arrived (R336). -/
def State.whole (s : State) (src : Nat) (m : Msg) : Bool :=
  (messageFlits m src 0).all fun y => s.fabric.arrived.any fun x => x.carries y

/-! ## Acknowledgements (R336, R359) -/

/-- True when sequence `a` is at or below `b`, both modulo 2^32. -/
def seqLe (a b : Nat) : Bool := decide ((b + 2 ^ 32 - a) % 2 ^ 32 < 2 ^ 31)

/-- An ACK carrying expected − 1 sent to `src` (R336); it reports a lost image to the partner (R359), and that the message
acknowledged last was turned down (R340, R344). -/
def State.sendAck (s : State) (src : Nat) (denied : Bool) : State :=
  let lost := s.ckpt.heldLost && src == s.fabric.partner
  (s.modCkpt fun c => { c with heldLost := c.heldLost && !lost }).sendControl 2 src
    ((tget 0 s.fabric.expectSeq src + 2 ^ 32 - 1) % 2 ^ 32) (Buf.ofBytes (leBytes 1 (b2n lost + 2 * b2n denied)))

/-- The expected sequence of `src` raised by 1, and the message acknowledged. -/
def State.delivered (s : State) (src : Nat) (denied : Bool) : State :=
  (s.modFabric fun f => { f with
    expectSeq := tset f.expectSeq src ((tget 0 f.expectSeq src + 1) % 2 ^ 32) }).sendAck src denied

/-! ## Forwarded writes and signals (R340-R343) -/

/-- The accept under which a write of `n` bytes at `a` from coordinates `src` lands (R340). -/
def State.acceptFor (s : State) (src a n : Nat) : Option Window :=
  s.ts.windows.find? fun w =>
    let b := extentBase w.die w.slot
    w.accept && w.coord == src && decide (b ≤ a) &&
      decide (a + n ≤ b + 65536 * (s.extent w.die w.slot).length)

/-- The bench that a signal under accept `w` posts to, when the program named runs (R343). -/
def State.signalBench (s : State) (w : Window) : Option Nat :=
  let p := s.prog (progKey w.fn w.index)
  if p.running.isSome then (p.binds.find? fun b => b.logical == w.logical).map (·.bench) else none

/-- A route word put into the queue of bench `b` (R150, R151). -/
def State.acceptRoute (s : State) (b : Nat) (word : DWord) : State :=
  s.modBench b fun x => { x with
    routePosted := x.routePosted + 1
    seq := { x.seq with routeQueue := x.seq.routeQueue ++ [word] } }

/-- A signal word posted (R343): discarded and counted when no execution runs, or its bench has ENDED. -/
def State.postSignal (s : State) (w : Window) (word : DWord) : State :=
  match s.signalBench w with
  | some b =>
    if (s.bench b).seq.st = .ended then s.modFabric fun f => { f with sigDrop := f.sigDrop + 1 }
    else s.acceptRoute b word
  | none => s.modFabric fun f => { f with sigDrop := f.sigDrop + 1 }

/-- The forwarded write held for `src` is held no longer; it has been delivered. -/
def State.unhold (s : State) (h : HeldWrite) (denied : Bool) : State :=
  (s.modFabric fun f => { f with heldWrites := f.heldWrites.filter fun x => x != h }).delivered h.src denied

/-- True when a cut holds a forwarded write (R350). -/
def State.cutHolds (s : State) (h : HeldWrite) : Bool :=
  s.ckpt.phase == 1 && h.late && s.inSet (addrDie h.addr) (addrSlot h.addr)

/-- A forwarded write tried as a host access of the accepting function (R342): it is delivered once it takes effect, and
turned down where no accept covers it (R344). A signal waits while its route queue is full (R152). -/
def State.tryForwarded (s : State) (h : HeldWrite) : State :=
  match s.acceptFor h.src h.addr h.payload.len with
  | none => s.unhold h true
  | some w =>
    let full := match s.signalBench w with
      | some b => h.signal && decide (64 ≤ (s.bench b).seq.routeQueue.length)
      | none => false
    if s.cutHolds h ∨ full = true then s
    else s.tsWrite { waiter := .peer h.src h.seq } w.fn h.addr h.payload.len
      (fun m => m.copyIn h.addr h.payload.bytes 0 h.payload.len)
      (fun r t => if r = .wait then t else t.unhold h false)
      (fun t =>
        let t1 := t.unhold h false
        if h.signal then t1.postSignal w (h.payload.bytes.dword 0) else t1)

/-- The answer to a bind request (R340): confirmed where the extent at `addr` accepts `src` and has the same length. -/
def State.bindMatches (s : State) (src addr length : Nat) : Bool :=
  s.ts.windows.any fun w => w.accept && w.coord == src && extentBase w.die w.slot == addr &&
    (s.extent w.die w.slot).length == length

/-! ## The partner's image (R357) -/

/-- A tile of cut `cut` from the partner written into its frame of the reserve; the image committed before the latest one
is served no longer. None when the reserve cannot hold it. -/
def State.holdFrame (s : State) (addr cut : Nat) (payload : Buf) : Option State :=
  let f : Frame := { addr := addr, cut := cut, data := payload.bytes }
  let fs := writeFrame s.ckpt.heldFrames s.ckpt.heldCommitted f
  if 2 * reservePages s.ts.reserveGb < fs.length then none
  else some ((s.frameWritten f).modCkpt fun c => { c with heldFrames := fs, heldPrevious := 0 })

/-- The partner's committed cut number advanced to `cut` in one step. -/
def State.holdCommit (s : State) (cut : Nat) : State :=
  s.modCkpt fun c => { c with
    heldPrevious := c.heldCommitted, heldCommitted := cut
    heldManifests := c.heldManifests.filter fun e => e.1 == cut || e.1 == c.heldCommitted }

/-- A message in its place of the sequence delivered (R336, R340-R344, R356, R357). -/
def State.deliver (s : State) (src seq addr : Nat) (payload : Buf) (kind : MsgKind) : State :=
  let ofPartner := src == s.fabric.partner
  match kind with
  | .write | .signal =>
    let h : HeldWrite := { src := src, seq := seq, addr := addr, payload := payload, signal := kind == .signal
                           late := s.ckpt.phase == 1 }
    (s.modFabric fun f => { f with heldWrites := f.heldWrites ++ [h] }).tryForwarded h
  | .bind length => s.delivered src (!s.bindMatches src addr length)
  | .tile cut =>
    match (if ofPartner ∧ payload.len = 65536 ∧ addr % 65536 = 0 then s.holdFrame addr cut payload else none) with
    | some t => t.delivered src false
    | none => s.delivered src (s.ckpt.phase != 4)
  | .manifest cut entries =>
    (if ofPartner then s.modCkpt fun c => { c with
        heldManifests := (c.heldManifests.filter fun e => e.1 != cut) ++ [(cut, entries)] }
      else s).delivered src false
  | .commit cut => (if ofPartner then s.holdCommit cut else s).delivered src false
  | .imageAsk =>
    ((if 4096 ≤ src ∧ (src - 4096) / 2 = coordBoard s.fabric.ident then s.serveImage src else s).delivered src
      false).stream

end Sys2Proof.Machine
end

