-- ==== Sys2Proof/Machine/HaulOps.lean ====
section
/-! DEFINITION. Request lines of the haul engines: the fields of a line descriptor, raising requests and
starting their indices again (R192-R194, R208). -/

namespace Sys2Proof.Machine

/-- Bytes `n` from offset `o` of a line descriptor, as a number. -/
def descField (d : BitVec 512) (o n : Nat) : Nat := bitsOf d.toNat (8 * (o + n) - 1) (8 * o)

/-- The channel that line `l` feeds: 4 × group + channel field (R192). -/
def Haul.channelOf (h : Haul) (l : Nat) : Nat :=
  4 * (l / 16) + descField (tget {} h.lines l).desc 1 1 % 4

/-- True when a channel is armed. -/
def Haul.isArmed (h : Haul) (c : Nat) : Bool := bitOf h.armed c

/-- Pending requests of line `l`. -/
def Haul.pending (h : Haul) (l : Nat) : Nat := (h.reqs.filter fun r => r.line == l).length

/-- The request index that follows `i` on a line (R192). -/
def nextIndex (d : BitVec 512) (i : Nat) : Nat :=
  if i + 1 = descField d 0x0C 2 then 0 else (i + 1) % 65536

/-- One request raised on line `l` by a bench whose loop indices are `idx` (R194). -/
def Haul.raiseOne (h : Haul) (bench l : Nat) (idx : List Nat) : Haul :=
  let x := tget {} h.lines l
  let q : Req := { order := h.nextOrder, line := l, bench := bench, index := x.index
                   loopIdx := idx.getD (descField x.desc 0x28 1) 0 }
  { h with reqs := h.reqs ++ [q], nextOrder := h.nextOrder + 1
           lines := tset h.lines l { x with index := nextIndex x.desc x.index } }

/-- `n` requests raised on line `l`. -/
def Haul.raiseMany (h : Haul) (bench l : Nat) (idx : List Nat) : Nat → Haul
  | 0 => h
  | n + 1 => (h.raiseOne bench l idx).raiseMany bench l idx n

/-- Request indices of the lines of group `g` back at 0 (R192). -/
def Haul.restartGroup (h : Haul) (g : Nat) : Haul :=
  { h with lines := h.lines.map fun e => (e.1, if e.1 / 16 = g then { e.2 with index := 0 } else e.2) }

/-- The request indices of every line that program `k` holds, back at 0. -/
def State.restartLines (s : State) (k : Nat) : State :=
  (List.range 8).foldl (fun t r => (List.range 4).foldl (fun u g =>
    if s.groupHolder r g = some k then u.modHaul r fun h => h.restartGroup g else u) t) s

end Sys2Proof.Machine
end

