-- ==== Sys2Proof/Machine/Nvm.lean ====
section
/-! DEFINITION. The NVM command set and the write path: Read, Write, Write Zeroes, Deallocate, Flush,
Verify, and the acceptance, read-back and journal events that a write goes through. -/

namespace Sys2Proof.Machine

/-- True when a namespace is active and attached to the controller of function `fn` (R297). -/
def State.nsUsable (s : State) (fn nsid : Nat) : Bool :=
  (s.ns nsid).active && (s.ns nsid).attached.contains fn

/-- The checks of an NVM command that names logical blocks: namespace, then range. -/
def State.lbaCheck (s : State) (fn nsid slba blocks : Nat) : Status :=
  if !s.nsUsable fn nsid then .invalidNamespace
  else if (s.ns nsid).blocks < slba + blocks then .lbaOutOfRange
  else .success

/-- True when a logical block of the range is marked unreadable (R278). -/
def State.anyMarked (s : State) (nsid slba blocks : Nat) : Bool :=
  s.flash.unreadable.any fun e => e.1 == nsid && decide (slba ≤ e.2) && decide (e.2 < slba + blocks) &&
    (s.newestPart nsid e.2).isNone

/-- A failed read counted in Media and Data Integrity Errors. -/
def State.mediaError (s : State) : State :=
  s.modFlash fun f => { f with mediaErrors := f.mediaErrors + 1 }

/-- The map entries of a range looked up and its pages read (R270, R280): the reads are counted now, and complete with
FLASH_READ_COMPLETE. -/
def State.readPages (s : State) (nsid slba blocks : Nat) : State :=
  let ps := s.pagesOf nsid slba blocks
  (ps.foldl State.countRead (s.lookupRange nsid slba blocks)).modFlash fun f => { f with reading := f.reading ++ ps }

/-- 2 MiB in logical blocks: MDTS (R298). -/
def mdtsBlocks : Nat := 512

/-- Read (R303): each block from the newest accepted write in the buffer, else from the page that the
map names; a marked block ends it with Unrecovered Read Error (R278). -/
def State.cmdRead (s : State) (c : Src) (nsid slba blocks : Nat) : State :=
  match s.lbaCheck c.fn nsid slba blocks with
  | .success =>
    if mdtsBlocks < blocks then s.done c .invalidField
    else
      let s1 := s.readPages nsid slba blocks
      if s.anyMarked nsid slba blocks then s1.mediaError.done c .unrecoveredRead
      else s1.answer c (.data { len := 4096 * blocks, bytes := s.readBlocks nsid slba blocks })
  | st => s.done c st

/-- READ. -/
def execRead (c : Src) (nsid slba blocks : Nat) (s : State) : Host.Outcome State Fault Refusal :=
  .next (hostCmd c .operational (fun t => t.cmdRead c nsid slba blocks) s)

/-- VERIFY (R297): the blocks are read and checked; no data is transferred. -/
def execVerify (c : Src) (nsid slba blocks : Nat) (s : State) : Host.Outcome State Fault Refusal :=
  .next (hostCmd c .operational (fun t =>
    match t.lbaCheck c.fn nsid slba blocks with
    | .success =>
      let t1 := t.readPages nsid slba blocks
      if t.anyMarked nsid slba blocks then t1.mediaError.done c .unrecoveredRead
      else t1.done c .success
    | st => t.done c st) s)

/-- The pieces of a write, split at logical block addresses that are multiples of 32 (R264). -/
def splitWrite : Nat → Nat → Nat → List (Nat × Nat)
  | 0, _, _ => []
  | f + 1, a, n =>
    if n = 0 then []
    else
      let k := Nat.min n (32 - a % 32)
      (a, k) :: splitWrite f (a + k) (n - k)

/-- IUs that a range of logical blocks touches. -/
def iusOf (slba blocks : Nat) : List Nat :=
  if blocks = 0 then []
  else (List.range ((slba + blocks - 1) / 4 - slba / 4 + 1)).map fun i => slba / 4 + i

/-- IUs that a range covers wholly: first and count (R469). -/
def wholeIus (slba blocks : Nat) : Nat × Nat :=
  let a := (slba + 3) / 4
  (a, (slba + blocks) / 4 - a)

/-- IUs that a range covers only in part. -/
def partialIus (slba blocks : Nat) : List Nat :=
  (if slba % 4 ≠ 0 ∨ blocks < 4 then iusOf slba (Nat.min blocks (4 - slba % 4)) else []) ++
  (if (slba + blocks) % 4 ≠ 0 ∧ slba / 4 < (slba + blocks) / 4 then [(slba + blocks) / 4] else [])
    |>.eraseDups |>.filter fun i => decide (0 < blocks) &&
      !(decide ((wholeIus slba blocks).1 ≤ i) &&
        decide (i < (wholeIus slba blocks).1 + (wholeIus slba blocks).2))

/-- A new part of the next operation put into the write buffer, its data still to arrive. -/
def State.addPart (s : State) (p : Part) : State :=
  s.modFlash fun f => { f with
    parts := f.parts ++ [{ p with id := f.nextPart, die := b2n (Config.bufferDie f.nextPart) }]
    nextPart := f.nextPart + 1 }

/-- A write-like command begun: its parts enter the buffer and its operation waits for them. -/
def State.beginWrite (s : State) (c : Src) (ps : List Part) : State :=
  let ids := (List.range ps.length).map fun i => s.flash.nextPart + i
  let s1 := ps.foldl (fun t p => t.addPart { p with op := s.host.nextOp }) s
  if ps.isEmpty then s.done c .success else s1.startOp c (.write ids .success)

/-- The parts of a write of `blocks` blocks at `slba`: up to 32 blocks make one part wherever they start, and
a longer write is split (R264). -/
def writePieces (slba blocks : Nat) : List (Nat × Nat) :=
  if 0 < blocks ∧ blocks ≤ 32 then [(slba, blocks)] else splitWrite blocks slba blocks

/-- The part of a Write that covers `n` blocks at `a`. -/
def dataPart (c : Src) (nsid slba : Nat) (data : Mem) (a n : Nat) : Part :=
  { id := 0, op := 0, src := c, nsid := nsid, slba := a, blocks := n
    data := Mem.copyIn [] 0 data ((a - slba) * 4096) (n * 4096)
    ius := (iusOf a n).map fun i => (i, 0, 0) }

/-- The part of a Write Zeroes or Deallocate over `n` blocks at `a` (R469). -/
def zeroPart (c : Src) (nsid a n : Nat) : Part :=
  { id := 0, op := 0, src := c, nsid := nsid, slba := a, blocks := n
    unmap := wholeIus a n, ius := (partialIus a n).map fun i => (i, 0, 0) }

/-- WRITE (R262, R264): refused at read-only end of life (R286); otherwise its parts enter the write
buffer. -/
def execWrite (c : Src) (nsid slba blocks : Nat) (data : Mem) (s : State) :
    Host.Outcome State Fault Refusal :=
  .next (hostCmd c .operational (fun t =>
    match t.lbaCheck c.fn nsid slba blocks with
    | .success =>
      if mdtsBlocks < blocks then t.done c .invalidField
      else if t.flash.readOnly then t.done c .namespaceWriteProtected
      else t.beginWrite c ((writePieces slba blocks).map fun e =>
        dataPart c nsid slba data e.1 e.2)
    | st => t.done c st) s)

/-- WRITE_ZEROES (R469). -/
def execWriteZeroes (c : Src) (nsid slba blocks : Nat) (s : State) :
    Host.Outcome State Fault Refusal :=
  .next (hostCmd c .operational (fun t =>
    match t.lbaCheck c.fn nsid slba blocks with
    | .success =>
      if t.flash.readOnly then t.done c .namespaceWriteProtected
      else t.beginWrite c [zeroPart c nsid slba blocks]
    | st => t.done c st) s)

/-- DEALLOCATE (R469): Dataset Management with Deallocate over a list of ranges. -/
def execDeallocate (c : Src) (nsid : Nat) (ranges : List (Nat × Nat)) (s : State) :
    Host.Outcome State Fault Refusal :=
  .next (hostCmd c .operational (fun t =>
    if !t.nsUsable c.fn nsid then t.done c .invalidNamespace
    else if ranges.any fun r => decide ((t.ns nsid).blocks < r.1 + r.2) then t.done c .lbaOutOfRange
    else if t.flash.readOnly then t.done c .namespaceWriteProtected
    else t.beginWrite c ((ranges.filter fun r => decide (0 < r.2)).map fun r =>
      zeroPart c nsid r.1 r.2)) s)

/-- The write operations that a Flush of `nsid` by function `fn` covers (R304). A Memory Copy into the namespace that
still waits for its source is none of them until its parts enter the write buffer (DESIGN CHOICE,
notes/assumptions/111.md). -/
def State.writesCovered (s : State) (fn nsid : Nat) : List Nat :=
  (s.host.ops.filter fun o => o.src.fn == fn &&
    match o.kind with
    | .write ps _ => s.flash.parts.any fun p => ps.contains p.id &&
        (p.nsid == nsid || (nsid == 0xFFFFFFFF && s.nsUsable fn p.nsid))
    | _ => false).map (·.id)

/-- FLUSH (R304): completes once every write submitted before it to the namespace on this controller
has completed. -/
def execFlush (c : Src) (nsid : Nat) (s : State) : Host.Outcome State Fault Refusal :=
  .next (hostCmd c .operational (fun t =>
    if nsid ≠ 0xFFFFFFFF ∧ t.nsUsable c.fn nsid = false then t.done c .invalidNamespace
    else
      let ws := t.writesCovered c.fn nsid
      if ws.isEmpty then t.done c .success else t.startOp c (.flush ws)) s)

/-- Part `i` of the write buffer. -/
def State.part (s : State) (i : Nat) : Option Part := s.flash.parts.find? fun p => p.id == i

/-- True when part `p` may be accepted: its data may arrive in any order, but no earlier overlapping
part of the same queue still waits (R302), and while writes are throttled no more come than garbage collection has
reclaimed space for (R275). -/
def State.mayAccept (s : State) (p : Part) : Bool :=
  p.stage == 0 && !(s.flash.parts.any fun q => q.stage == 0 && decide (q.id < p.id) &&
    q.src.fn == p.src.fn && q.src.sq == p.src.sq && q.nsid == p.nsid &&
    overlaps q.slba q.blocks p.slba p.blocks) &&
  (!s.flash.throttling || decide (p.ius.length ≤ s.flash.credit))

/-- WRITE_ACCEPT (R301, R302): the part's data has arrived; it is merged and accepted, which gives it its
place in the order of acceptance. -/
def execWriteAccept (part : Nat) (s : State) : Host.Outcome State Fault Refusal :=
  .next (match s.part part with
  | none => s
  | some p => when (s.mayAccept p) (fun t =>
      (t.modFlash fun f => { f with
        parts := f.parts.map fun q =>
          if q.id = part then { q with stage := if q.ius.isEmpty then 2 else 1, order := f.nextAccept }
          else q
        nextAccept := f.nextAccept + 1
        credit := if f.throttling then f.credit - p.ius.length else f.credit
        hostIu := f.hostIu + BitVec.ofNat 64 p.ius.length }).queueReady 64) s)

/-- The part changed after an attempt on IU `iu`: attempts counted, location kept when it was read back.
-/
def Part.attempt (p : Part) (iu ppa stripe : Nat) (ok : Bool) : Part :=
  let ius := p.ius.map fun x => if x.1 = iu then (x.1, x.2.1 + 1, if ok then ppa + 1 else 0) else x
  { p with ius := ius
           stripes := if ok then (if p.stripes.contains stripe then p.stripes else p.stripes ++ [stripe])
             else p.stripes
           stage := if ius.all fun x => decide (0 < x.2.2) then 2 else p.stage }

/-- IUs of accepted parts still to be programmed that no program unit holds, in the order of acceptance. -/
def State.waitingIus (s : State) : List (Part × Nat) :=
  (sortBy (fun a b => decide (a.order ≤ b.order)) (s.flash.parts.filter fun p => p.stage == 1)).flatMap fun p =>
    (p.ius.filter fun x => x.2.2 == 0 &&
      !(s.flash.programmed.any fun e => e.part == p.id && e.iu == x.1)).map fun x => (p, x.1)

/-- IU `iu` of part `p` programmed, in one unit with up to three others that wait (R256, R262). -/
def State.programIu (s : State) (p : Part) (iu : Nat) : Option State :=
  let us := ((p, iu) :: s.waitingIus.filter fun e => !(e.1.id == p.id && e.2 == iu)).take 4
  match s.programUnit s.programOrder (us.map fun e => s.mergedIu e.1 e.2) with
  | none => none
  | some (t, ps) => some (t.modFlash fun f => { f with
      programmed := f.programmed ++ (us.zip ps).map fun e =>
        { part := e.1.1.id, iu := e.1.2, ppa := e.2.1, stripe := e.2.2 } })

/-- The program of an IU that awaits read-back. -/
def State.programOf (s : State) (part iu : Nat) : Option Programmed :=
  s.flash.programmed.find? fun e => e.part == part && e.iu == iu

/-- The program of IU `iu` of part `p`, made now unless its unit has been programmed. None while no pSLC block has
room. -/
def State.iuProgram (s : State) (p : Part) (iu : Nat) : Option (State × Programmed) :=
  match s.programOf p.id iu with
  | some e => some (s, e)
  | none =>
    match s.programIu p iu with
    | none => none
    | some t => (t.programOf p.id iu).map fun e => (t, e)

/-- IU_READ_BACK (R262, R263): the pSLC program of one IU and its read-back end; `worst` is the most bits corrected in a
codeword, none when one does not decode (R261). A failure strikes the block, which is programmed no further, so that the
next attempt takes another; the third ends the write with Write Fault. -/
def execIuReadBack (part iu : Nat) (worst : Option Nat) (s : State) : Host.Outcome State Fault Refusal :=
  .next (match s.part part with
  | none => s
  | some p =>
    if p.stage = 1 ∧ (p.ius.any fun x => x.1 == iu && x.2.2 == 0) then
      match s.iuProgram p iu with
      | none => s
      | some (t, e) =>
        let q := p.attempt iu e.ppa e.stripe (readBackOk worst)
        let t1 := (t.countRead e.ppa).modFlash fun f => { f with
          programmed := f.programmed.filter fun x => x != e
          parts := f.parts.map fun x => if x.id = part then q else x }
        if readBackOk worst then t1.queueReady 64
        else
          let t2 := t1.strike (pageBlock e.ppa)
          if q.ius.any fun x => x.1 == iu && decide (3 ≤ x.2.1) then t2.writeFault q else t2
    else s)

/-- JOURNAL_RECORD_DURABLE (R273): both copies of the oldest queued records pass read-back. The map is
updated, and a write whose record it is completes. Where no two stacks remain on which the journal can be written the
module enters read-only end of life (R286). -/
def execJournalRecordDurable (s : State) : Host.Outcome State Fault Refusal :=
  .next (match s.flash.queued with
  | [] => s
  | (part, rs) :: rest =>
    if s.journalStack.isNone then s.endOfLife
    else
      let s1 := (s.modFlash fun f => { f with queued := rest }).commitGroup rs
      match part with
      | none => s1
      | some i =>
        let s2 := s1.modFlash fun f => { f with
          parts := f.parts.map fun p => if p.id = i then { p with stage := 4 } else p }
        ((s2.partEnded i .success).freeBuffers).serveFlushes)

/-- The operation of a command that an Abort names: same controller, queue and command identifier. -/
def State.opOf (s : State) (fn sq cid : Nat) : Option Op :=
  s.host.ops.find? fun o => o.src.fn == fn && o.src.sq == sq && o.src.cid == cid

/-- Dword 0 of an Abort completion: bit 0 set when the abort was not performed. -/
def notAborted : Word := 1

/-- An execution stopped at step boundaries by an Abort: what it has started finishes, its command
completes with Command Abort Requested (R146). -/
def State.abortExecution (s : State) (k : Nat) : State :=
  match (s.prog k).running with
  | none => s
  | some op => (s.stopExecution k false none).finish op .abortRequested

/-- ABORT (R146, R301): a running or waiting execute stops; a scan, a wait or a write not yet accepted is
given up; an accepted write is not. -/
def execAbort (c : Src) (sq cid : Nat) (s : State) : Host.Outcome State Fault Refusal :=
  .next (hostCmd c .operational (fun t =>
    match t.opOf c.fn sq cid with
    | none => t.doneDw c .success notAborted 0
    | some o =>
      match o.kind with
      | .execute k _ started =>
        (if started then t.abortExecution k else t.finish o.id .abortRequested).done c .success
      | .write ps _ =>
        if t.flash.parts.any fun p => ps.contains p.id && decide (1 ≤ p.stage) then
          t.doneDw c .success notAborted 0
        else
          (((t.modFlash fun f => { f with parts := f.parts.filter fun p => !ps.contains p.id }).finish o.id
            .abortRequested).serveFlushes).done c .success
      | .scan i =>
        (t.modScan i fun x => { x with stopped := true, status := .abortRequested }).done c .success
      | .flush _ => (t.finish o.id .abortRequested).done c .success
      | .memRead _ _ => (t.finish o.id .abortRequested).done c .success
      | .memWrite _ _ => (t.finish o.id .abortRequested).done c .success
      | .memCopy _ _ _ _ _ => (t.finish o.id .abortRequested).done c .success
      | .ckptWait _ => (t.finish o.id .abortRequested).done c .success
      | _ => t.doneDw c .success notAborted 0) s)

end Sys2Proof.Machine
end

