-- ==== Sys2Proof/Machine/Settle.lean ====
section
/-! DEFINITION. Host commands that wait inside the module, tried again when something may have released
them: queued executes, memory commands, creations, moves for Place and Pin, and unloads (R144, R165,
R166, R181, R306, R309). -/

namespace Sys2Proof.Machine

/-! ## Executes (R144) -/

/-- A bench whose units have finished everything they had started. -/
def Bench.quiet (b : Bench) : Bool :=
  !b.vec.running && b.walker.launch.isNone && b.walker.search.isNone &&
    b.arrays.all fun e => e.2.load.isNone && e.2.streams.isEmpty && e.2.drain.isNone && e.2.queue.isEmpty

/-- A bench as an execution starts it (R144, R148): counters, generators, queue, ownership and
accumulators cleared; T0 and the vector registers keep their contents. -/
def Bench.started (b : Bench) : Bench :=
  { b with
    seq := { b.seq with
      st := .running, pc := (b.bind.map (·.entryPc)).getD 0, waitCause := [], waitSince := none
      gateSince := none, atBarrier := none, arriving := none, skipTested := false, finishing := false
      loopCount := [none, none, none, none], loopIdx := [0, 0, 0, 0], ags := [none, none, none, none]
      countRegs := [0, 0, 0, 0], gateCount := 0, tileAddr := [], routeQueue := [], routeInbox := []
      faultCode := 0, faultPc := 0 }
    gate := { b.gate with waiting := false, fired := false }
    arrays := b.arrays.map fun e => (e.1, { e.2 with owner := none, banks := [] }) }

/-- Program `k` starts for operation `op` with its parameter words. -/
def State.startExecution (s : State) (k op : Nat) (params : List Int) : State :=
  let s1 := (s.benchesOf k).foldl (fun t b => (t.modBench b Bench.started).wake (regionOf b)) s
  let s2 := s1.restartLines k
  let s3 := s2.modProg k fun p => { p with
    running := some op, params := params, arrived := [], ended := []
    hoist := p.hoistNext, hoistLayer := none }
  (s3.modOp op fun _ => .execute k params true).issueHoist k

/-! ## Memory commands (R165, R309) -/

/-- The end of a memory command whose access is not made; it goes on waiting while it is held back. -/
def State.memFailed (op : Nat) (r : Acc) (s : State) : State :=
  match r with
  | .ok => s
  | .wait => s
  | .bad => s.finish op .lbaOutOfRange
  | .denied => s.finish op .accessDenied
  | .lost => s.finish op (.vendor 0xC0)
  | .poisoned => s.finish op .unrecoveredRead
  | .exhausted c => s.finish op (.vendor 0xC2) (BitVec.ofNat 32 c)

/-- The write parts of operation `op` put into the write buffer. -/
def State.addParts (s : State) (op : Nat) (ps : List Part) : State :=
  let ids := (List.range ps.length).map fun i => s.flash.nextPart + i
  (ps.foldl (fun t p => t.addPart { p with op := op }) s).modOp op fun _ => .write ids .success

/-- A copy between a memory range and a namespace (R309). -/
def State.tryCopy (s : State) (o : Op) (addr nsid slba blocks : Nat) (toNvm : Bool) : State :=
  if toNvm then
    s.tsRead { waiter := .op o.id } o.src.fn addr (4096 * blocks) false (State.memFailed o.id) fun t =>
      if t.flash.readOnly then t.finish o.id .namespaceWriteProtected
      else t.addParts o.id ((writePieces slba blocks).map fun e =>
        dataPart o.src nsid slba (Mem.copyIn [] 0 t.ts.mem addr (4096 * blocks)) e.1 e.2)
  else if s.anyMarked nsid slba blocks then s.mediaError.finish o.id .unrecoveredRead
  else
    let bytes := s.readBlocks nsid slba blocks
    s.tsStore { waiter := .op o.id } o.src.fn addr (4096 * blocks) none
      (fun m => m.copyIn addr bytes 0 (4096 * blocks)) (State.memFailed o.id)
      fun t => (t.readPages nsid slba blocks).finish o.id .success

/-! ## Extents (R166, R181, R182) -/

/-- An extent created in tier `t` of die `d`, slot `j` (R166). -/
def State.placeNew (s : State) (op d j t fn : Nat) (w : Word) : State :=
  let len := fld w 15 0
  let a := extentBase d j
  let s1 := (s.zeroExtent d j len).modDie d fun x => { x with
    slots := tset x.slots j { st := 1, length := len, copyTier := t, owner := fn
                              affinity := fld w 20 19, pinned := bitOf w.toNat 22
                              shared := bitOf w.toNat 23, slice := s.sliceFor d (fld w 20 19)
                              lastUse := s.dieNow d / 1000 } }
  match s1.op op with
  | none => s1
  | some o => (s1.dropOp op).post { src := o.src, status := .success, dw0 := BitVec.ofNat 32 a
                                    dw1 := BitVec.ofNat 32 (a / 2 ^ 32) } o.since

/-- A creation tried from tier `t` downwards (R166, R182): `fuel` bounds the tiers. -/
def State.tryTiers (s : State) (op d j fn : Nat) (w : Word) : Nat → Nat → State
  | 0, _ => s
  | n + 1, t =>
    let len := fld w 15 0
    let sl := s.sliceFor d (fld w 20 19)
    let lower := fun (c : Nat) =>
      if bitOf w.toNat 21 ∨ 3 ≤ t then
        (s.exhaust d c).finish op (.vendor 0xC2) (BitVec.ofNat 32 c)
      else s.tryTiers op d j fn w n (t + 1)
    if t = 1 ∧ t1Longest < len then lower 6
    else if t = 1 ∧ (s.region (4 * d + sl)).st = .reset then s
    else if s.fits d t sl len fn then s.placeNew op d j t fn w
    else
      match s.makeRoom d t sl len fn 1 with
      | .error c => lower c
      | .ok s1 => if s1.fits d t sl len fn then s1.placeNew op d j t fn w else s1

/-- True while a reset of face die `d` runs: work on its tensor space is held (R382 step 1). -/
def State.dieResets (s : State) (d : Nat) : Bool := s.resets.any fun r => r.scope == 2 && r.idx == d

/-- A creation tried: it takes the lowest FREE slot of its die. -/
def State.tryCreate (s : State) (o : Op) (w : Word) : State :=
  let d := fld w 16 16
  if (s.die d).held then s.finish o.id (.vendor 0xC0)
  else if s.dieResets d then s
  else match s.freeSlot d with
  | none => (s.exhaust d 1).finish o.id (.vendor 0xC2) 1
  | some j => s.tryTiers o.id d j o.src.fn w 3 (fld w 18 17)

/-- Slot `j` of die `d` pinned where its copy lies: moves of it that are queued for another reason than a Place are
withdrawn (R181). -/
def State.pinned (s : State) (d j : Nat) : State :=
  (s.modExtent d j fun x => { x with pinned := true }).modDie d fun x => { x with
    queue := x.queue.filter fun m => m.slot != j || m.cls == 4 }

/-- A move for Place or Pin (R166, R181): it completes when the extent's copy lies in the tier named,
0 standing for the current one; a move that has left the queue is requested again. -/
def State.tryPlace (s : State) (o : Op) (d j t : Nat) (pin : Bool) : State :=
  let e := s.extent d j
  if s.dieResets d then s
  else if e.st = 0 ∨ e.st = 3 then s.finish o.id .invalidField
  else if e.st = 2 then
    if pin ∧ t = 0 then s.modExtent d j fun x => { x with pinOnCommit := true } else s
  else if t = 0 ∨ e.copyTier = t then
    (if pin then s.pinned d j else s).finish o.id .success
  else if s.queuedTier d j = t then s
  else if t = 1 ∧ t1Longest < e.length then
    (s.exhaust d 6).finish o.id (.vendor 0xC2) 6
  else
    let cls := if pin ∧ t < e.copyTier then 1 else 4
    if t = e.homeTier then s.requestMove d j t cls
    else
      match s.makeRoom d t (s.sliceFor d e.affinity) e.length e.owner cls with
      | .error c => (s.exhaust d c).finish o.id (.vendor 0xC2) (BitVec.ofNat 32 c)
      | .ok s1 => s1.requestMove d j t cls

/-- A Peer Copy tried: once its local bytes can be read and the retransmit store has room, it is sent as
messages of at most 65,536 bytes (R344). -/
def State.tryPeerCopy (s : State) (o : Op) (addr remote len dst : Nat) (sent : Bool) : State :=
  if sent ∨ s.storeRoom (addrDie addr) len = false then s
  else s.tsRead { waiter := .op o.id } o.src.fn addr len false (State.memFailed o.id) fun t =>
    ((pieces (len + 1) 0 len).foldl (fun u e =>
      u.sendMsg { dst := dst, seq := 0, addr := remote + e.1, die := addrDie addr, fn := o.src.fn
                  op := some o.id
                  payload := { len := e.2, bytes := u.ts.mem.slice (addr + e.1) e.2 0 } }) t).modOp o.id
      fun _ => .peerCopy addr remote len dst true

/-! ## Trying again -/

/-- True when an execute, of a scan or of benches, submitted before operation `i` still stands for program `k`. -/
def State.earlierExecute (s : State) (i k : Nat) : Bool :=
  s.host.ops.any fun o => decide (o.id < i) &&
    match o.kind with
    | .execute p _ _ => p == k
    | .scan j => (s.scan j).any fun x => x.prog == k
    | _ => false

/-- One waiting operation tried. -/
def State.tryOp (s : State) (o : Op) : State :=
  match o.kind with
  | .execute k params started =>
    if started || s.heldExecute o.id o.src.fn || (s.prog k).running.isSome || s.earlierExecute o.id k ||
        !((s.benchesOf k).all fun b => (s.bench b).quiet) then s
    else s.startExecution k o.id params
  | .memRead a n => s.tsRead { waiter := .op o.id } o.src.fn a n false (State.memFailed o.id) fun t =>
      t.finish o.id .success 0 (.data { len := n, bytes := Mem.copyIn [] 0 t.ts.mem a n })
  | .memWrite a d => if s.heldWrite o.id a then s else s.tsStore { waiter := .op o.id } o.src.fn a d.len none (fun m => m.copyIn a d.bytes 0 d.len)
      (State.memFailed o.id) fun t => t.finish o.id .success
  | .memCopy a nsid slba blocks toNvm =>
    if !toNvm && s.heldWrite o.id a then s else s.tryCopy o a nsid slba blocks toNvm
  | .create w => s.tryCreate o (BitVec.ofNat 32 w)
  | .place d j t pin => s.tryPlace o d j t pin
  | .restore n source => s.tryRestore o n source
  | .peerCopy a r n d sent => s.tryPeerCopy o a r n d sent
  | .unload k => if s.earlierExecute o.id k then s else (s.unload k).finish o.id .success
  | _ => s

/-- Every forwarded write that waits and every outstanding operation tried once, in their orders. -/
def State.tryAll (s : State) : State :=
  let s1 := s.fabric.heldWrites.foldl State.tryForwarded s
  s1.host.ops.foldl (fun t o => match t.op o.id with | some x => t.tryOp x | none => t) s1

/-- Operations tried again, `n` rounds. -/
def State.settleRounds : Nat → State → State
  | 0, s => s
  | n + 1, s => State.settleRounds n s.tryAll

/-- Everything that waits tried again: an operation that ends may release another. -/
def State.settle (s : State) : State := s.settleRounds (s.host.ops.length + s.fabric.heldWrites.length)

/-- `t`, with everything that waits tried again when a command of `s` has ended on the way. -/
def State.after (s t : State) : State :=
  if t.host.ops.length < s.host.ops.length then t.settle else t

/-- An operation started and tried at once. -/
def State.startTry (s : State) (c : Src) (k : OpKind) : State := (s.startOp c k).settle

end Sys2Proof.Machine
end

