-- ==== Sys2Proof/Machine/Sequencer.lean ====
section
/-! DEFINITION. The sequencer of a bench: issuing a step, ending, barriers, the wait limit, the batch
gate and the delivery of remote route words (R106, R107, R115-R135, R150-R152). -/

namespace Sys2Proof.Machine

/-- True when the clock of bench `b`'s region runs. -/
def State.benchAwake (s : State) (b : Nat) : Bool := (s.region (regionOf b)).st == .active

/-! ## Waits (R125, R128, R129, R131) -/

/-- Wait cause numbers, the bits of BN_SEQ_STAT.wait_cause (Table 5.11). -/
def waitFence : Nat := 0
/-- The batch gate. -/
def waitGate : Nat := 1
/-- Requests. -/
def waitRequest : Nat := 2
/-- The route queue. -/
def waitRoute : Nat := 3
/-- A barrier. -/
def waitBarrier : Nat := 4
/-- Array queue places. -/
def waitArray : Nat := 5
/-- The vector unit. -/
def waitVector : Nat := 6
/-- The walker. -/
def waitWalker : Nat := 7

/-- True when bench `b` has nothing under way: the condition of a fence (R131). -/
def State.fenceClear (s : State) (b : Nat) : Bool :=
  (s.bench b).quiet && !((s.region (regionOf b)).haul.reqs.any fun r => r.bench == b)

/-- The physical lines that a 16-bit mask of a step names (R129). -/
def StepWord.lines (w : StepWord) (g : Binding) (mask : Nat) : List Nat :=
  ((List.range 16).filter fun i => bitOf mask i).map fun i => 16 * g.groupMap.getD w.reqGroup 0 + i

/-- The physical arrays that a step's operation goes to, by logical array. -/
def StepWord.places (w : StepWord) (g : Binding) : List (Nat × Nat) :=
  ((List.range 4).filter fun a => bitOf w.arrayMask a).map fun a => (a, g.arrayMap.getD a 0)

/-- The causes that hold a step back, the route queue, the gate and barriers left out (R128). -/
def State.stepWaits (s : State) (b : Nat) (w : StepWord) (g : Binding) : List Nat :=
  let x := s.bench b
  let h := (s.region (regionOf b)).haul
  (if (w.fence || w.flow == 4) && !s.fenceClear b then [waitFence] else []) ++
  (if ((w.lines g w.waitMask).any fun l => decide (0 < h.pending l)) ||
      ((w.lines g w.raiseMask).any fun l => decide (65535 < h.pending l + w.raiseCount + 1))
    then [waitRequest] else []) ++
  (if w.arrayOp != 0 && (List.range 4).any fun p =>
      decide (4 < (tget {} x.arrays p).queue.length +
        ((w.places g).filter fun e => e.2 == p).length) then [waitArray] else []) ++
  (if (w.vecWait || w.vecLaunch) && x.vec.running then [waitVector] else []) ++
  (if (w.walkWait || w.walkLaunch) && (x.walker.launch.isSome || x.walker.search.isSome)
    then [waitWalker] else [])

/-- The sequencer of bench `b` waits for causes (Table 5.11); the step's wait began at the first of
them, and time on the gate is left out (R130). -/
def State.waitOn (s : State) (b : Nat) (causes : List Nat) : State :=
  let now := s.dieNow (benchDie b)
  s.modSeq b fun q => { q with
    st := .waiting, waitCause := causes
    waitSince := match q.waitSince with | some t => some t | none => some now }

/-- The sequencer of bench `b` waits on the gate. -/
def State.waitOnGate (s : State) (b : Nat) : State :=
  let now := s.dieNow (benchDie b)
  (s.modSeq b fun q => { q with
    st := .waiting, waitCause := [waitGate]
    gateSince := match q.gateSince with | some t => some t | none => some now }).modBench b fun x =>
      { x with gate := { x.gate with waiting := true } }

/-! ## Taking the flow (R116, R118, R123, R135) -/

/-- The sequencer goes on at step `pc`; past the last step it faults at the step it leaves
(Table 5.10, 0x12). -/
def State.goTo (s : State) (b pc : Nat) (g : Binding) : State :=
  if g.stepCount ≤ pc then s.benchFault b 0x12 (s.bench b).seq.pc
  else s.modSeq b fun q => { q with
    st := .running, pc := pc, waitCause := [], waitSince := none, gateSince := none, skipTested := false }

/-- The flow of a step taken; `rw` is the head route word that the step read. -/
def State.takeFlow (s : State) (b : Nat) (w : StepWord) (rw : Nat) (g : Binding) : State :=
  let q := (s.bench b).seq
  match w.flow with
  | 1 => s.goTo b w.target g
  | 2 =>
    match q.loopCount.getD w.loopSel none with
    | none => s.benchFault b 0x04 q.pc
    | some c =>
      let i := q.loopIdx.getD w.loopSel 0 + 1
      if i < c then
        (s.modSeq b fun y => { y with loopIdx := listMod y.loopIdx w.loopSel fun _ => i }).goTo b w.target g
      else
        (s.modSeq b fun y => { y with loopIdx := listMod y.loopIdx w.loopSel fun _ => 0 }).goTo b
          (q.pc + 1) g
  | 3 =>
    let e := bitsOf rw (w.routeLsb + w.routeWidth) w.routeLsb
    let ent := (tget 0 (s.bench b).jumps (256 * w.jtSel + e)).toNat
    if bitOf ent 15 then
      (s.modBench b fun x => { x with jtabTaken := x.jtabTaken + 1 }).goTo b (bitsOf ent 13 0) g
    else s.benchFault b 0x03 q.pc
  | 4 => s.modSeq b fun y => { y with
      st := .waiting, waitCause := [waitFence], finishing := true
      waitSince := some (q.waitSince.getD (s.dieNow (benchDie b))) }
  | _ => s.goTo b (q.pc + 1) g

/-- A step's end: the route queue popped, then the flow (R118 steps 4 and 5). -/
def State.finishStep (s : State) (b : Nat) (w : StepWord) (g : Binding) : State :=
  let rw := (((s.bench b).seq.routeQueue.head?).getD 0).toNat
  let s1 := if w.routePop then s.modSeq b fun q => { q with routeQueue := q.routeQueue.drop 1 } else s
  s1.takeFlow b w rw g

/-! ## Barriers (R133) -/

/-- The logical benches of a program that take part in barrier `n` and have not ended. -/
def Prog.participants (p : Prog) (n : Nat) : List Nat :=
  (p.binds.map (·.logical)).filter fun l => bitOf (p.barrierMasks.getD n 0) l && !p.ended.contains l

/-- The arrival of bench `b` at barrier `n` recorded; a BARRIER then waits for release, an ARRIVE goes
on. -/
def State.arrive (s : State) (b n : Nat) (w : StepWord) (g : Binding) : State :=
  let s1 := (s.modProg g.prog fun p => { p with arrived := tmod [] p.arrived n fun l => l ++ [g.logical] })
  if w.syncOp = 1 then
    (s1.waitOn b [waitBarrier]).modSeq b fun q => { q with atBarrier := some n, arriving := none }
  else (s1.modSeq b fun q => { q with arriving := none }).finishStep b w g

/-- The barrier action of a step; an earlier arrival of the bench that is not released yet holds it. -/
def State.syncStep (s : State) (b : Nat) (w : StepWord) (g : Binding) : State :=
  if w.syncOp = 0 then s.finishStep b w g
  else if (tget [] (s.prog g.prog).arrived w.syncSel).contains g.logical then
    (s.waitOn b [waitBarrier]).modSeq b fun q => { q with arriving := some w.syncSel }
  else s.arrive b w.syncSel w g

/-! ## The actions of a step (R118 step 3) -/

/-- The address generator load, the loop load and the request raises of a step. -/
def State.loadAndRaise (s : State) (b : Nat) (w : StepWord) (g : Binding) : State :=
  let desc := agOf (tget 0 (s.bench b).descs w.agCfgIndex).toNat
  let s1 := s.modSeq b fun q => { q with
    ags := if w.agCfgEn then listMod q.ags w.agCfgSel fun _ => some desc else q.ags
    loopCount := if w.loopSetEn then listMod q.loopCount w.loopSetSel fun _ => some w.loopCount
      else q.loopCount
    loopIdx := if w.loopSetEn then listMod q.loopIdx w.loopSetSel fun _ => 0 else q.loopIdx }
  let idx := (s1.bench b).seq.loopIdx
  (w.lines g w.raiseMask).foldl (fun t l =>
    t.modHaul (regionOf b) fun h => h.raiseMany b l idx (w.raiseCount + 1)) s1

/-- The row count of a STREAM or DRAIN (R124). -/
def StepWord.rows (w : StepWord) (q : Sequencer) : Nat :=
  match w.nSrc with
  | 1 => q.gateCount
  | 2 => q.countRegs.getD w.crSel 0
  | _ => w.n

/-- The physical bank of a step's bank for logical array `a` (R142). -/
def StepWord.physBank (w : StepWord) (g : Binding) (a : Nat) : Nat := g.bankMap.getD (4 * a + w.bank) 0

/-- The operation that a step issues on logical array `a`, or the fault that its operands raise. -/
def State.arrayOpFor (s : State) (b : Nat) (w : StepWord) (g : Binding) (a : Nat) :
    Except Nat ArrayOp :=
  let q := (s.bench b).seq
  match s.agAddress b w.srcAg a 64 with
  | none => .error 0x0B
  | some (sp, addr) =>
    match w.arrayOp with
    | 1 => .ok (.load a addr (sp == 1) q.pc none)
    | 2 =>
      if sp ≠ 1 then .error 0x0B
      else if thas q.tileAddr a = false then .error 0x0F
      else .ok (.stream a addr (w.physBank g a) w.rowFirst w.accFirst (w.rows q) w.fmt w.mode
        (some (tget (0, false) q.tileAddr a)) q.pc)
    | _ =>
      match s.agAddress b w.dstAg a 64 with
      | none => .error 0x0B
      | some (dsp, out) =>
        if sp ≠ 1 ∨ dsp ≠ 1 then .error 0x0B
        else .ok (.drain a addr out (w.physBank g a) w.rowFirst (w.rows q) w.fmt q.pc)

/-- The array operation of a step issued to every logical array of its mask (R125); a row count of 0
performs nothing (Table 5.3). -/
def State.issueArrays (s : State) (b : Nat) (w : StepWord) (g : Binding) :
    List (Nat × Nat) → Except Nat State
  | [] => .ok s
  | (a, p) :: r =>
    match s.arrayOpFor b w g a with
    | .error c => .error c
    | .ok op =>
      let s1 := s.modArr b p fun x => { x with queue := x.queue ++ [op] }
      let s2 := match op with
        | .load l addr t0 _ _ => s1.modSeq b fun q => { q with tileAddr := tset q.tileAddr l (addr, t0) }
        | _ => s1
      s2.issueArrays b w g r

/-- The array action of a step. Where it breaks several rules the row count is reported first (0x0C), then the
addresses (0x0B), then a missing LOAD (0x0F): the spec gives no order (DESIGN CHOICE, notes/assumptions/103.md). -/
def State.issueArray (s : State) (b : Nat) (w : StepWord) (g : Binding) : Except Nat State :=
  if w.arrayOp = 0 then .ok s
  else if w.arrayOp ≠ 1 ∧ 256 < w.rows (s.bench b).seq then .error 0x0C
  else if w.arrayOp ≠ 1 ∧ w.rows (s.bench b).seq = 0 then .ok s
  else s.issueArrays b w g (w.places g)

/-- The vector launch of a step. -/
def State.issueVector (s : State) (b : Nat) (w : StepWord) : Except Nat State :=
  if w.vecLaunch then
    match s.agAddress b w.vecAg 0 64 with
    | none => .error 0x0B
    | some (sp, a) => .ok (s.modBench b fun x => { x with
        vec := { x.vec with running := true, vpc := w.vecEntry, base := a, space := sp
                            launchPc := x.seq.pc } })
  else .ok s

/-- The walker launch of a step; a retired walker gives fault 0x11 (R239). -/
def State.issueWalker (s : State) (b : Nat) (w : StepWord) : Except Nat State :=
  if w.walkLaunch then
    if (s.bench b).walker.retired then .error 0x11
    else match s.agAddress b w.walkAg 0 8 with
    | none => .error 0x0B
    | some (sp, a) => .ok (s.modBench b fun x => { x with
        walker := { x.walker with launch := some (a, sp, x.seq.pc) } })
  else .ok s

/-- The actions of a step in their order, each seeing those before it (R118 step 3). -/
def State.performStep (s : State) (b : Nat) (w : StepWord) (g : Binding) : State :=
  let pc := (s.bench b).seq.pc
  let s1 := (s.modBench b fun x => { x with seqSteps := x.seqSteps + 1 }).loadAndRaise b w g
  match s1.issueArray b w g with
  | .error c => s1.benchFault b c pc
  | .ok s2 =>
    match s2.issueVector b w with
    | .error c => s2.benchFault b c pc
    | .ok s3 =>
      match s3.issueWalker b w with
      | .error c => s3.benchFault b c pc
      | .ok s4 => s4.syncStep b w g

/-! ## Issuing a step (R118) -/

/-- True when a step reads or pops the head route word. -/
def StepWord.readsRoute (w : StepWord) : Bool :=
  w.skipMode == 1 || w.skipMode == 2 || w.flow == 3 || w.routePop

/-- True when the skip of a step is taken. -/
def StepWord.skips (w : StepWord) (q : Sequencer) : Bool :=
  let rw := ((q.routeQueue.head?).getD 0).toNat
  match w.skipMode with
  | 1 => bitOf rw w.routeLsb
  | 2 => !bitOf rw w.routeLsb
  | 3 => q.countRegs.getD w.crSel 0 == 0
  | _ => false

/-- The header of the load at place `i` of an array's queue read into the header buffer and checked (R64, R91); a read
that must wait leaves it to be read later. -/
def State.takeHeader (s : State) (b a i : Nat) : State :=
  match (s.arr b a).queue[i]? with
  | some (.load l addr t0 pc none) =>
    let site : Site := { bench := b, pc := pc, unit := 2 + a }
    s.benchRead site (if t0 then 1 else 2) addr tileHeader true fun m t =>
      if tileHeaderOk m addr then
        let op := ArrayOp.load l addr t0 pc (some (Mem.copyIn [] addr m addr tileHeader))
        t.modArr b a fun x => { x with queue := listMod x.queue i fun _ => op }
      else t.siteFault site 0x07
  | _ => s

/-- The headers of the loads that a step has issued read as soon as it is issued (R91). -/
def State.takeHeaders (s : State) (b : Nat) (w : StepWord) (g : Binding) : State :=
  if w.arrayOp = 1 then
    (w.places g).foldl (fun t e => t.takeHeader b e.2 ((t.arr b e.2).queue.length - 1)) s
  else s

/-- The step at which bench `b` stands, treated in the order of R118: its skip is evaluated once, before its waits. -/
def State.issueStep (s : State) (b : Nat) (g : Binding) : State :=
  let x := s.bench b
  let w := x.step
  if w.readsRoute && x.seq.routeQueue.isEmpty then s.waitOn b [waitRoute]
  else if !x.seq.skipTested && w.skips x.seq then
    let s1 := s.modBench b fun y => { y with
      skippedSteps := y.skippedSteps + BitVec.ofNat 64 (w.skipLen + 1)
      seq := { y.seq with routeQueue := if w.routePop then y.seq.routeQueue.drop 1
                                        else y.seq.routeQueue } }
    s1.goTo b (x.seq.pc + w.skipLen + 1) g
  else
    let s1 := s.modSeq b fun q => { q with skipTested := true }
    let causes := s1.stepWaits b w g
    if !causes.isEmpty then s1.waitOn b causes
    else if w.gateWait && !x.gate.fired then s1.waitOnGate b
    else ((s1.modBench b fun y => { y with gate := { y.gate with fired := false } }).performStep b w g).takeHeaders
      b w g

/-- SEQUENCER_STEP (R118): the sequencer of bench `bench` treats the step at which it stands. -/
def execSequencerStep (bench : Nat) (s : State) : Host.Outcome State Fault Refusal :=
  .next (match (s.bench bench).bind with
  | none => s
  | some g =>
    let q := (s.bench bench).seq
    if (q.st = .running ∨ q.st = .waiting) ∧ s.benchAwake bench = true ∧ q.atBarrier = none ∧
        q.arriving = none ∧ q.finishing = false ∧ (s.prog g.prog).running.isSome = true then
      s.after (s.issueStep bench g)
    else s)

/-! ## The end of a bench's part (R134, R152) -/

/-- Words on their way to a bench discarded, each counted at the bench that posted it (R152). -/
def State.dropInbox (s : State) (b : Nat) : State :=
  (s.bench b).seq.routeInbox.foldl (fun t e => t.modBench e.2 fun x => { x with
    routeDiscarded := x.routeDiscarded + 1 }) (s.modSeq b fun q => { q with routeInbox := [] })

/-- The execution of program `k` completed once every bench has ENDED (R134). -/
def State.completeExecution (s : State) (k : Nat) : State :=
  match (s.prog k).running with
  | none => s
  | some op =>
    if (s.prog k).binds.all fun e => (s.prog k).ended.contains e.logical then
      (((s.discardRequests k).endFetch k).modProg k fun p => { p with
        running := none, arrived := [], ended := [], hoistLayer := none }).finish op
          .success
    else s

/-- END_COMPLETE (R134): the bench leaves its barriers, its route queue is discarded and it is ENDED; the
execute command completes when every bench of the program has. -/
def execEndComplete (bench : Nat) (s : State) : Host.Outcome State Fault Refusal :=
  .next (match (s.bench bench).bind with
  | none => s
  | some g =>
    if (s.bench bench).seq.finishing = true ∧ s.fenceClear bench = true then
      let s1 := (s.dropInbox bench).modSeq bench fun q => { q with
        st := .ended, finishing := false, waitCause := [], waitSince := none, routeQueue := [] }
      let s2 := s1.modProg g.prog fun p => { p with
        ended := p.ended ++ [g.logical]
        arrived := p.arrived.map fun e => (e.1, e.2.filter fun l => l != g.logical) }
      s.after ((s2.busy (regionOf bench)).completeExecution g.prog)
    else s)

/-- The bench of logical number `l` of program `k`. -/
def State.benchOfLogical (s : State) (k l : Nat) : Option Nat :=
  ((s.prog k).binds.find? fun e => e.logical == l).map (·.bench)

/-- What the release of barrier `n` does to bench `b`: a BARRIER ends its step, a held arrival is made.
-/
def State.releaseBench (s : State) (n b : Nat) (g : Binding) : State :=
  let q := (s.bench b).seq
  let w := (s.bench b).step
  if q.atBarrier = some n then
    (s.modSeq b fun y => { y with atBarrier := none }).finishStep b w g
  else if q.arriving = some n then s.arrive b n w g
  else s

/-- BARRIER_RELEASE (R133): every participant still running of the barrier `barrier` of the program of
bench `bench` has arrived: the arrivals are cleared and the waiting steps go on. -/
def execBarrierRelease (bench barrier : Nat) (s : State) : Host.Outcome State Fault Refusal :=
  .next (match (s.bench bench).bind with
  | none => s
  | some g =>
    let p := s.prog g.prog
    let here := tget [] p.arrived barrier
    if here ≠ [] ∧ (p.participants barrier).all (fun l => here.contains l) = true then
      let s1 := s.modProg g.prog fun x => { x with arrived := tdel x.arrived barrier }
      s.after (p.binds.foldl (fun t e =>
        match (t.bench e.bench).bind with
        | none => t
        | some h => t.releaseBench barrier e.bench h) s1)
    else s)

/-- WAIT_LIMIT_EXPIRE (R130): the step of bench `bench` has waited longer than wait_limit management
periods, time on the gate left out: fault 0x0D. -/
def execWaitLimitExpire (bench : Nat) (s : State) : Host.Outcome State Fault Refusal :=
  let q := (s.bench bench).seq
  .next (match q.waitSince with
  | none => s
  | some t =>
    if q.st = .waiting ∧ q.gateSince = none ∧ q.waitLimit ≠ 0 ∧
        t + 1000 * q.waitLimit < s.dieNow (benchDie bench) then
      s.after (s.benchFault bench 0x0D q.pc)
    else s)

/-! ## The batch gate (R106, R107) -/

/-- The fill target in effect (Table 4.5). -/
def Gate.fill (g : Gate) : Nat :=
  if g.fillTarget = 0 then 1 else Nat.min 256 g.fillTarget

/-- GATE_FIRE (R106, R107): the gate that a step waits on fires, by fill or by deadline, and hands over up
to 256 rows, oldest first. The wait of the oldest row reaches the monitors (source 0x07 of Table 18.2). -/
def execGateFire (bench : Nat) (s : State) : Host.Outcome State Fault Refusal :=
  let g := (s.bench bench).gate
  let now := s.dieNow (benchDie bench)
  .next (match g.rows with
  | [] => s
  | oldest :: _ =>
    let full := decide (g.fill ≤ g.rows.length)
    if g.waiting = true ∧ s.benchAwake bench = true ∧ (full = true ∨ oldest + g.deadlineTicks ≤ now) then
      (s.modBench bench fun x => { x with
        gate := { g with
          rows := g.rows.drop 256, waiting := false, fired := true, lastByDeadline := !full
          fillCount := if full then g.fillCount + 1 else g.fillCount
          deadlineCount := if full then g.deadlineCount else g.deadlineCount + 1 }
        seq := { x.seq with
          gateCount := Nat.min 256 g.rows.length, waitCause := [], st := .running, gateSince := none
          waitSince := x.seq.waitSince.map fun t => t + (now - x.seq.gateSince.getD now) } }).observe 0x07 bench
          ((now - oldest : Nat) : Int)
    else s)

/-! ## Route words (R120, R151, R152) -/

/-- REMOTE_ROUTE_DELIVER (R151, R152): the oldest remote word on its way to bench `bench` arrives in its
queue, or is discarded when the bench has ENDED. -/
def execRemoteRouteDeliver (bench : Nat) (s : State) : Host.Outcome State Fault Refusal :=
  .next (match (s.bench bench).seq.routeInbox with
  | [] => s
  | (word, poster) :: rest =>
    let s1 := s.modSeq bench fun q => { q with routeInbox := rest }
    if (s.bench bench).seq.st = .ended then
      s1.modBench poster fun x => { x with routeDiscarded := x.routeDiscarded + 1 }
    else s1.acceptRoute bench word)

end Sys2Proof.Machine
end

