-- ==== Sys2Proof/Machine/Vector.lean ====
section
/-! DEFINITION. The vector unit: one command per opcode of Table 5.7, which issues the next vector word
of the kernel that runs on a bench (R82-R84, R136, R137, R150, R471). -/

namespace Sys2Proof.Machine

/-- The vector word that bench `b` issues next. -/
def Bench.nextWord (x : Bench) : VecWord := vecOf (tget 0 x.kernel x.vec.vpc).toNat

/-- The site of a vector word: faults name the step that launched the kernel. -/
def State.vecSite (s : State) (b : Nat) : Site := { bench := b, pc := (s.bench b).vec.launchPc }

/-- The vector unit of bench `b` goes on to the next word, or ends its kernel after the last (R136). -/
def State.nextVec (s : State) (b : Nat) (w : VecWord) : State :=
  s.modBench b fun x => { x with vec := { x.vec with vpc := x.vec.vpc + 1, running := !w.last } }

/-- Bench `b` issues its next vector word, which must be the opcode `op`; a word that breaks R471 ends
the execution with fault 0x10. -/
def State.vector (s : State) (b op : Nat) (f : VecWord → State → State) : State :=
  let x := s.bench b
  if x.vec.running ∧ s.benchAwake b then
    let w := x.nextWord
    if w.valid = false then s.after (s.siteFault (s.vecSite b) 0x10)
    else if w.opcode = op then s.after (f w s)
    else s
  else s

/-- Results written to the lanes of register `dst` of bench `b`, their conditions noted. -/
def State.writeLanes (s : State) (b : Nat) (w : VecWord) (l : List (Word × Flags)) : State :=
  (s.modBench b fun x => { x.flag (flagsOf l) with vec := x.vec.setLanes w.dst (l.map (·.1)) }).nextVec b w

/-- A lane-wise operation of one register. -/
def State.lane1 (s : State) (b op : Nat) (f : VFmt → Word → Word × Flags) : State :=
  s.vector b op fun w t => t.writeLanes b w (((t.bench b).vec.lanes w.srcA).map (f w.fmt))

/-- A lane-wise operation of two registers. -/
def State.lane2 (s : State) (b op : Nat) (f : VFmt → Word → Word → Word × Flags) : State :=
  s.vector b op fun w t =>
    let v := (t.bench b).vec
    t.writeLanes b w (List.zipWith (f w.fmt) (v.lanes w.srcA) (v.lanes w.srcB))

/-- A lane-wise operation of three registers. -/
def State.lane3 (s : State) (b op : Nat) (f : VFmt → Word → Word → Word → Word × Flags) : State :=
  s.vector b op fun w t =>
    let v := (t.bench b).vec
    t.writeLanes b w (List.zipWith (fun p c => f w.fmt p.1 p.2 c)
      (List.zip (v.lanes w.srcA) (v.lanes w.srcB)) (v.lanes w.srcC))

/-- A reduction of the lanes of `src_a` into lane 0 of `dst`; the other lanes keep their contents
(R471). -/
def State.reduceLanes (s : State) (b : Nat) (w : VecWord) (f : VFmt → List Word → Word × Flags) : State :=
  let r := f w.fmt ((s.bench b).vec.lanes w.srcA)
  (s.modBench b fun x => { x.flag r.2 with
    vec := x.vec.setLanes w.dst (r.1 :: (x.vec.lanes w.dst).drop 1) }).nextVec b w

/-- ADD: lane-wise sum (Table 5.7, R82, R471). -/
def execAdd (bench : Nat) (s : State) : Host.Outcome State Fault Refusal :=
  .next (s.lane2 bench 0x10 laneAdd)

/-- SUB: lane-wise difference (Table 5.7, R82, R471). -/
def execSub (bench : Nat) (s : State) : Host.Outcome State Fault Refusal :=
  .next (s.lane2 bench 0x11 laneSub)

/-- MUL: lane-wise product (Table 5.7, R82, R471). -/
def execMul (bench : Nat) (s : State) : Host.Outcome State Fault Refusal :=
  .next (s.lane2 bench 0x12 laneMul)

/-- FMA: lane-wise a × b + c (Table 5.7, R82, R471). -/
def execFma (bench : Nat) (s : State) : Host.Outcome State Fault Refusal :=
  .next (s.lane3 bench 0x13 laneFma)

/-- MAX: lane-wise maximum (Tables 3.6 and 5.7, R83); what the spec does not state of a NaN operand and of zeros of
opposite signs is a free value of the two lanes. -/
def execMax (bench : Nat) (s : State) : Host.Outcome State Fault Refusal :=
  .next (s.lane2 bench 0x14 (laneExtremum true))

/-- MIN: lane-wise minimum (Tables 3.6 and 5.7, R83); what the spec does not state of a NaN operand and of zeros of
opposite signs is a free value of the two lanes. -/
def execMin (bench : Nat) (s : State) : Host.Outcome State Fault Refusal :=
  .next (s.lane2 bench 0x15 (laneExtremum false))

/-- CMPLT: 1 where a < b, else 0 (Tables 3.6 and 5.7, R471). -/
def execCmplt (bench : Nat) (s : State) : Host.Outcome State Fault Refusal :=
  .next (s.lane2 bench 0x16 laneCmplt)

/-- SEL: c ≠ 0 ? a : b (Tables 3.6 and 5.7, R471). -/
def execSel (bench : Nat) (s : State) : Host.Outcome State Fault Refusal :=
  .next (s.lane3 bench 0x17 laneSel)

/-- DIV: lane-wise quotient, correctly rounded (Tables 3.6 and 5.7, R471). -/
def execDiv (bench : Nat) (s : State) : Host.Outcome State Fault Refusal :=
  .next (s.lane2 bench 0x18 laneDiv)

/-- SQRT: lane-wise square root, correctly rounded (Tables 3.6 and 5.7, R471). -/
def execSqrt (bench : Nat) (s : State) : Host.Outcome State Fault Refusal :=
  .next (s.lane1 bench 0x19 laneSqrt)

/-- RSQRT: lane-wise reciprocal square root, correctly rounded (Tables 3.6 and 5.7, R471). -/
def execRsqrt (bench : Nat) (s : State) : Host.Outcome State Fault Refusal :=
  .next (s.lane1 bench 0x1A laneRsqrt)

/-- EXP: lane-wise exponential within 1 ulp (Tables 3.6 and 5.7, R471). -/
def execExp (bench : Nat) (s : State) : Host.Outcome State Fault Refusal :=
  .next (s.lane1 bench 0x1B laneExp)

/-- CVT: `src_a`, read in the format that `src_c` names, converted to vfmt (R471). -/
def execCvt (bench : Nat) (s : State) : Host.Outcome State Fault Refusal :=
  .next (s.vector bench 0x20 fun w t =>
    t.writeLanes bench w (((t.bench bench).vec.lanes w.srcA).map
      (convert ((vfmtOf w.srcC).getD .fp32) w.fmt)))

/-- RSUM: the sum of the lanes of `src_a` into lane 0 of `dst`, in an order that is fixed but not stated
(Table 5.7, R83). -/
def execRsum (bench : Nat) (s : State) : Host.Outcome State Fault Refusal :=
  .next (s.vector bench 0x28 fun w t => t.reduceLanes bench w reduceSum)

/-- RMAX: the largest lane of `src_a` into lane 0 of `dst` (R83). -/
def execRmax (bench : Nat) (s : State) : Host.Outcome State Fault Refusal :=
  .next (s.vector bench 0x29 fun w t => t.reduceLanes bench w (reduceExtremum true))

/-- RMIN: the smallest lane of `src_a` into lane 0 of `dst` (R83). -/
def execRmin (bench : Nat) (s : State) : Host.Outcome State Fault Refusal :=
  .next (s.vector bench 0x2A fun w t => t.reduceLanes bench w (reduceExtremum false))

/-- Address of a vector word's operand in memory: the kernel's base plus imm. -/
def Bench.vecAddr (x : Bench) (w : VecWord) : Nat := x.vec.base + w.imm

/-- LD: 256 elements of vfmt at base + imm into `dst` (Table 5.7, R82). -/
def execLd (bench : Nat) (s : State) : Host.Outcome State Fault Refusal :=
  .next (s.vector bench 0x01 fun w t =>
    let x := t.bench bench
    let a := x.vecAddr w
    t.benchRead (t.vecSite bench) x.vec.space a (256 * w.fmt.bytes) false fun m u =>
      u.writeLanes bench w ((List.range 256).map fun i =>
        (w.fmt.widen (m.getLe (a + i * w.fmt.bytes) w.fmt.bytes), {})))

/-- ST: 256 elements of `src_a`, narrowed to vfmt, stored at base + imm (Table 5.7, R471). -/
def execSt (bench : Nat) (s : State) : Host.Outcome State Fault Refusal :=
  .next (s.vector bench 0x02 fun w t =>
    let x := t.bench bench
    let l := (x.vec.lanes w.srcA).map w.fmt.store
    t.benchWrite (t.vecSite bench) x.vec.space (x.vecAddr w) (l.flatMap fun e => w.fmt.toBytes e.1)
      fun u => (u.flag bench (flagsOf l)).nextVec bench w)

/-- A row appended to the row queue of bench `b`, stamped with the face die's KCLK count (R106). -/
def State.appendRow (s : State) (b : Nat) : State :=
  s.modBench b fun x => { x with gate := { x.gate with rows := x.gate.rows ++ [s.dieNow (benchDie b)] } }

/-- QUANT: the row in `src_a` quantised into vfmt, codes at base + imm and the row descriptor at
base + imm + 256 (R70, R71); with the append flag it waits while the row queue is full and then appends
the row (R106). -/
def execQuant (bench : Nat) (s : State) : Host.Outcome State Fault Refusal :=
  .next (s.vector bench 0x30 fun w t =>
    let x := t.bench bench
    let q := quantise (w.fmt == .u8z) (x.vec.lanes w.srcA)
    let bytes := q.codes.map (BitVec.ofNat 8) ++
      descBytes q.scale q.zero (if w.fmt == .u8z then 1 else 2) q.nonfinite q.allZero
    if w.srcC = 1 ∧ 512 ≤ x.gate.rows.length then t
    else t.benchWrite (t.vecSite bench) x.vec.space (x.vecAddr w) bytes fun u =>
      let v := u.flag bench q.flags
      (if w.srcC = 1 then v.appendRow bench else v).nextVec bench w)

/-- The code bits of a byte replaced: `w` bits from bit `sh` become `c`. -/
def mergeCode (old : Byte) (w sh c : Nat) : Byte :=
  BitVec.ofNat 8 (old.toNat % 2 ^ sh + (c % 2 ^ w) * 2 ^ sh + old.toNat / 2 ^ (sh + w) * 2 ^ (sh + w))

/-- The bytes of one reduction row whose codes are `cs`. -/
def packRow (fmt : Nat) (cs : List Nat) : List Byte :=
  let w := codeBits fmt
  (List.range (rowLen fmt)).map fun i =>
    BitVec.ofNat 8 ((List.range (8 / w)).foldl (fun v j => v + cs.getD (i * (8 / w) + j) 0 % 2 ^ w * 2 ^ (w * j)) 0)

/-- What ENCODE writes for lanes `l` and index `ix` into the image at `a` of `m` (R137), with the
conditions: row form, or column form when `col`. -/
def encodeWrites (m : Mem) (a ix : Nat) (col : Bool) (l : List Word) : List (Nat × List Byte) × Flags :=
  let fmt := m.getLe (a + 4) 1
  let k := m.getLe (a + 6) 2
  let n := m.getLe (a + 8) 2
  let cb := codebookAt m a
  let scale := fun i => m.word (a + 64 + 4 * i)
  if col then
    let cs := (l.take k).map (encodeWeight fmt cb (scale ix))
    let w := codeBits fmt
    (cs.zipIdx.map fun e =>
      let pos := a + tileHeader + e.2 * rowLen fmt + ix * w / 8
      (pos, [mergeCode (m.get pos) w (ix * w % 8) e.1.1]), flagsOf cs)
  else
    let cs := ((l.take n).zipIdx).map fun e => encodeWeight fmt cb (scale e.2) e.1
    ([(a + tileHeader + ix * rowLen fmt, packRow fmt (cs.map (·.1)))], flagsOf cs)

/-- The bytes that writes reach: the first address and the number of bytes up to the end of the last. -/
def writeSpan (l : List (Nat × List Byte)) : Nat × Nat :=
  let lo := (l.map (·.1)).foldl Nat.min ((l.headD (0, [])).1)
  (lo, (l.map fun e => e.1 + e.2.length).foldl Nat.max lo - lo)

/-- ENCODE: the FP32 lanes of `src_a` encoded into one row or one column of the weight tile image at
base + imm (R67, R137). Checks in order: the word, every address, the header. -/
def execEncode (bench : Nat) (s : State) : Host.Outcome State Fault Refusal :=
  .next (s.vector bench 0x31 fun w t =>
    let x := t.bench bench
    let a := x.vecAddr w
    let site := t.vecSite bench
    let ix := ((x.vec.lanes w.srcB).headD 0).toNat
    if 255 < ix then t.siteFault site 0x10
    else if a % 64 ≠ 0 then t.siteFault site 0x0B
    else t.benchRead site x.vec.space a tileHeader false fun m u =>
      let span := writeSpan (encodeWrites m a ix (w.srcC == 1) (x.vec.lanes w.srcA)).1
      u.benchRead site x.vec.space span.1 span.2 false fun m2 v =>
        if tileHeaderOk m a then
          let r := encodeWrites m2 a ix (w.srcC == 1) (x.vec.lanes w.srcA)
          State.benchWrites site x.vec.space (fun y => (y.flag bench r.2).nextVec bench w) r.1 v
        else v.siteFault site 0x07)

/-- ROUTE_POST: lanes 1 and 0 of `src_a` posted as one route word, to this bench or to the logical bench
in lane 2 (R120, R150-R152). A full queue holds the unit; a target that has ENDED discards the word. Words on their
way to a queue count against its 64 places (DESIGN CHOICE, notes/assumptions/104.md). -/
def execRoutePost (bench : Nat) (s : State) : Host.Outcome State Fault Refusal :=
  .next (s.vector bench 0x38 fun w t =>
    let x := t.bench bench
    let l := x.vec.lanes w.srcA
    let word : DWord := BitVec.ofNat 64 ((l.getD 1 0).toNat * 2 ^ 32 + (l.getD 0 0).toNat)
    let lane2 := (l.getD 2 0).toNat
    let target := if w.srcC = 1 then t.benchOfLogical (t.benchProg bench) lane2 else some bench
    match target with
    | none => t.siteFault (t.vecSite bench) 0x10
    | some d =>
      let q := (t.bench d).seq
      if q.st ≠ .running ∧ q.st ≠ .waiting then
        (t.modBench bench fun y => { y with routeDiscarded := y.routeDiscarded + 1 }).nextVec bench w
      else if 64 ≤ q.routeQueue.length + q.routeInbox.length then t
      else if d = bench then (t.acceptRoute bench word).nextVec bench w
      else (t.modSeq d fun y => { y with routeInbox := y.routeInbox ++ [(word, bench)] }).nextVec bench w)

/-- CR_SET: count register imm[1:0] takes lane 0 of `src_a` as I32, clamped to 0-65,535 (Table 5.7,
R124). -/
def execCrSet (bench : Nat) (s : State) : Host.Outcome State Fault Refusal :=
  .next (s.vector bench 0x39 fun w t =>
    let v := clampInt 0 65535 ((((t.bench bench).vec.lanes w.srcA).headD 0).toInt)
    (t.modSeq bench fun q => { q with
      countRegs := listMod q.countRegs (w.imm % 4) fun _ => v.toNat }).nextVec bench w)

/-- NOP: nothing but the next word (Table 5.7). -/
def execNop (bench : Nat) (s : State) : Host.Outcome State Fault Refusal :=
  .next (s.vector bench 0x3F fun w t => t.nextVec bench w)

end Sys2Proof.Machine
end

