-- ==== Sys2Proof/Machine/Haul.lean ====
section
/-! DEFINITION. The regional haul engines: line descriptors, arbitration, bursts, bus errors, completion
and the register writes of the host driver (R191-R208, R155). -/

namespace Sys2Proof.Machine

/-! ## Line descriptors (Table 8.2) -/

/-- A line descriptor taken apart. -/
structure LineDesc where
  mode : Nat
  channel : Nat
  prio : Nat
  append : Bool
  srcSpace : Nat
  dstSpace : Nat
  srcParam : Nat
  dstParam : Nat
  burst : Nat
  rep : Nat
  srcBase : Int
  dstBase : Int
  srcStep : Int
  dstStep : Int
  loopSel : Nat
  srcLoop : Int
  dstLoop : Int
  list : Nat
deriving DecidableEq, Repr

/-- The fields of a line descriptor. -/
def lineDescOf (d : BitVec 512) : LineDesc :=
  { mode := descField d 0 1, channel := descField d 1 1, prio := descField d 2 1
    append := bitOf (descField d 3 1) 0, srcSpace := descField d 4 1, dstSpace := descField d 5 1
    srcParam := descField d 6 1, dstParam := descField d 7 1, burst := descField d 8 4
    rep := descField d 0x0C 2, srcBase := signed 64 (descField d 0x10 8)
    dstBase := signed 64 (descField d 0x18 8), srcStep := signed 32 (descField d 0x20 4)
    dstStep := signed 32 (descField d 0x24 4), loopSel := descField d 0x28 1
    srcLoop := signed 32 (descField d 0x2C 4), dstLoop := signed 32 (descField d 0x30 4)
    list := descField d 0x34 4 }

/-- True when a descriptor keeps Table 8.2. -/
def lineDescOk (d : BitVec 512) : Bool :=
  let x := lineDescOf d
  decide (1 ≤ x.mode) && decide (x.mode ≤ 3) && decide (x.channel < 4) && decide (x.prio ≤ 3) &&
    decide (descField d 3 1 ≤ 1) && decide (1 ≤ x.srcSpace) && decide (x.srcSpace ≤ 2) &&
    decide (1 ≤ x.dstSpace) && decide (x.dstSpace ≤ 2) && decide (x.srcParam ≤ 8) &&
    decide (x.dstParam ≤ 8) && decide (descField d 0x0E 2 = 0) && decide (descField d 0x29 3 = 0) &&
    decide (descField d 0x38 8 = 0) && (decide (x.loopSel ≤ 3) || x.loopSel == 0xFF) &&
    (if x.mode = 1 then
      decide (64 ≤ x.burst) && decide (x.burst ≤ 65536) && decide (x.burst % 64 = 0) &&
        decide (1 ≤ x.rep) && x.list == 0
    else
      x.burst == 0 && decide (264 ≤ x.srcStep) && decide (x.srcStep % 8 = 0) && decide (x.dstStep = 0) &&
        (if x.mode = 2 then decide (1 ≤ x.rep) && decide (x.rep ≤ 256) && x.list == 0
         else x.rep == 256 && decide (x.list % 64 = 0)))

/-- The source address of a request: the step multiplies the request index, or the source row. -/
def LineDesc.src (x : LineDesc) (params : List Int) (idx row : Nat) : Int :=
  x.srcBase + (if x.srcParam = 0 then 0 else params.getD (x.srcParam - 1) 0) + x.srcLoop * (idx : Int) +
    x.srcStep * (row : Int)

/-- The destination address of a request (R194). -/
def LineDesc.dst (x : LineDesc) (params : List Int) (idx r : Nat) : Int :=
  x.dstBase + (if x.dstParam = 0 then 0 else params.getD (x.dstParam - 1) 0) + x.dstLoop * (idx : Int) +
    x.dstStep * (r : Int)

/-! ## Bursts (R196-R199) -/

/-- Bytes of a plain row: 256 codes and the row descriptor (R197). -/
def plainRow : Nat := 264

/-- Bytes of an activation tile of `rows` token rows. -/
def actTileBytes (rows : Nat) : Nat := 2304 + 256 * (rows + 255)

/-- The burst of request index `r` of a line, with the gather list that it holds. -/
def LineDesc.burstOf (x : LineDesc) (gather : List Nat) (r : Nat) : Burst :=
  match x.mode with
  | 1 => .copy x.burst
  | 2 => .row r r x.rep
  | _ => if r < gather.length then .row (gather.getD r 0) r gather.length else .idle

/-- Bytes that a burst writes (RG_HE_BYTES): tile fills included. -/
def Burst.bytes : Burst → Nat
  | .idle => 0
  | .copy n => n
  | .row _ r rows => plainRow + (if r = 0 then actTileBytes rows else 0)

/-- Bytes of source that a burst reads. -/
def Burst.srcBytes : Burst → Nat
  | .idle => 0
  | .copy n => n
  | .row _ _ _ => plainRow

/-- What a grant comes to. -/
inductive Grant where
  | moved
  /-- The burst must wait; arbitration passes the channel over (R204). -/
  | waiting
  /-- The raising command ends and the engine goes on (R204: no room for a demand move). -/
  | ended
  /-- A bus error of Table 8.4: code, whether a write failed, address and space. -/
  | stop (code : Nat) (write : Bool) (addr : Int) (space : Nat)
  /-- The access found an uncorrectable word: the reset that it triggered ends the burst. -/
  | reset
deriving DecidableEq, Repr

/-- The first of `n` bytes at `a` that lies outside a space of R122, if one does. -/
def firstOutside (space : Nat) (a : Int) (n : Nat) : Option Int :=
  if a < 0 ∨ (spaceSize space : Int) ≤ a then some a
  else if (spaceSize space : Int) < a + n then some (spaceSize space) else none

/-- The end of an access of a burst that is not made; `a` is its first failing address (R205). -/
def grantFailed (write : Bool) (a : Nat) (b : Nat) (r : Acc) (s : State) : Grant × State :=
  match r with
  | .ok => (.reset, s)
  | .wait => (.waiting, s)
  | .bad => (.stop 0x04 write a 2, s)
  | .denied => (.stop 0x04 write a 2, s)
  | .lost => (.stop 0x05 write a 2, s.benchEnd b (.vendor 0xC0) 0)
  | .poisoned => (.stop 0x06 write a 2, s.benchEnd b .unrecoveredRead 0)
  | .exhausted c => (.ended, s.benchEnd b (.vendor 0xC2) (BitVec.ofNat 32 c))

/-- The first failing address of an access to `n` bytes at `a` that met `r` (RG_HE_ERR1): the end of the extent that it
crosses, the first poisoned space tile, otherwise its first byte. -/
def State.firstFailing (s : State) (a n : Nat) (r : Acc) : Nat :=
  let d := addrDie a
  let j := addrSlot a
  let e := s.extent d j
  match r with
  | .bad => if e.st = 0 ∨ 2 ^ 48 ≤ a then a else Nat.max a (extentBase d j + e.length * 65536)
  | .poisoned =>
    (((tilesOf a n).find? fun t => e.poison.contains t && !s.dramPoisoned d j t).map
      fun t => Nat.max a (tileAddr d j t)).getD a
  | _ => a

/-- The accesses of function `fn` to the spans `l` (R204): the first error ends them; otherwise they are held back while
one of them is. The answer names the first failing address. -/
def State.reachSpans (fn : Nat) (wr : Bool) : List (Nat × Nat) → State → Acc × Nat × State
  | [], s => (.ok, 0, s)
  | (a, n) :: l, s =>
    match s.tsReach fn a n false wr with
    | (.ok, t) => State.reachSpans fn wr l t
    | (.wait, t) =>
      match State.reachSpans fn wr l t with
      | (.ok, b, u) => (.wait, b, u)
      | r => r
    | (r, t) => (r, s.firstFailing a n r, t)

/-- The spans of a tensor-space burst reached: they lie wholly inside one extent (R194). -/
def State.reachExtent (s : State) (fn : Nat) (wr : Bool) (l : List (Nat × Nat)) : Acc × Nat × State :=
  match l.find? fun e => e.1 / 2 ^ 31 != (l.headD (0, 0)).1 / 2 ^ 31 with
  | some e => (.bad, e.1, s)
  | none => State.reachSpans fn wr l s

/-- A burst of request `q` that touches the tensor space at `a`: the hoist list of its program follows (R185). -/
def State.haulTouch (s : State) (q : Req) (space a : Nat) : State :=
  if space = 1 then s else s.hoistTouch (s.benchProg q.bench) (extentBase (addrDie a) (addrSlot a))

/-- The burst `w` held back for the extent at `a`, for the space tiles `ts` that it reads, or no longer held back. -/
def State.haulWaits (s : State) (w : Waiter) (space a : Nat) (ts : List Nat) (held late : Bool) : State :=
  if space = 1 then s
  else if held then s.wants (addrDie a) (addrSlot a) w ts late
  else s.waitEnds (addrDie a) (addrSlot a) w

/-- True when a hoist move of the extent at `a` has been issued. -/
def State.hoistLateAt (s : State) (space a : Nat) : Bool :=
  space != 1 && s.hoistIssued (addrDie a) (addrSlot a)

/-- The accesses of the burst of request `q` in the engine of region `r`, of the source bytes and of every destination
span (R204): none when it can run, which moves and reads nothing yet; otherwise what the grant comes to. -/
def State.reachBurst (s : State) (r : Nat) (q : Req) (ssp a n dsp d : Nat) (spans : List (Nat × Nat)) :
    Option Grant × State :=
  let w := Waiter.line r q.line
  let fn := s.benchFn q.bench
  let s0 := (s.haulTouch q ssp a).haulTouch q dsp d
  let x := if ssp = 1 then (.ok, 0, s0) else s0.reachExtent fn false [(a, n)]
  let y := if dsp = 1 then (.ok, 0, x.2.2) else x.2.2.reachExtent fn true spans
  let full := dsp != 1 && (s.boundWindow (addrDie d) (addrSlot d)).isSome &&
    !s.storeRoom (addrDie d) ((spans.map (·.2)).foldl (· + ·) 0)
  if x.1 ≠ .ok ∧ x.1 ≠ .wait then
    let g := grantFailed false x.2.1 q.bench x.1 x.2.2
    (some g.1, g.2)
  else if y.1 ≠ .ok ∧ y.1 ≠ .wait then
    let g := grantFailed true y.2.1 q.bench y.1 y.2.2
    (some g.1, g.2)
  else
    let held := x.1 == .wait || y.1 == .wait || full
    ((if held then some .waiting else none),
      (y.2.2.haulWaits w dsp d [] (y.1 == .wait) (s0.hoistLateAt dsp d)).haulWaits w ssp a (tilesOf a n)
        (x.1 == .wait) (s0.hoistLateAt ssp a))

/-- The memory that holds space `sp` as bench `b`'s engine sees it. -/
def State.spaceMem (s : State) (b sp : Nat) : Mem := if sp = 1 then (s.bench b).t0 else s.ts.mem

/-- `n` bytes at `a`, which can be accessed, read for bench `b`'s request; `k` continues. An uncorrectable word resets
its region or face die (R20, R204). -/
def State.haulRead (s : State) (b sp a n : Nat) (k : State → Grant × State) : Grant × State :=
  if sp = 1 then
    match s.eccRead 1 b a n with
    | (s1, none) => k s1
    | (s1, some w) => (.reset, s1.sramError (regionOf b) 0x01 b w b)
  else
    let t := (s.extent (addrDie a) (addrSlot a)).servedFrom (addrTile a)
    match s.poisonedCodeword a n false with
    | some w => (.reset, s.dramConsumed (addrDie a) w)
    | none =>
      match s.eccRead (tierMemory t) 0 a n with
      | (s2, none) => k s2
      | (s2, some w) => (.reset, s2.tsError
          { bench := b, die := some (addrDie a), waiter := .line (regionOf b) 0 } t w (fun _ u => u))

/-- Writes `ws` of a burst of request `q` carried out, one after another, then `k`; an uncorrectable word that one of
them has to read resets, and ends them. -/
def State.haulPut (q : Req) (sp : Nat) (k : State → State) : List (Nat × Nat × (Mem → Mem)) → State → State
  | [], s => k s
  | (a, n, f) :: r, s =>
    if sp = 1 then s.writeT0 q.bench a n f (State.haulPut q sp k r)
    else
      s.tsStore { bench := q.bench, die := some (addrDie a), waiter := .line (regionOf q.bench) q.line }
        (s.benchFn q.bench) a n (some (s.benchProg q.bench)) f (fun _ u => u) (State.haulPut q sp k r)

/-- The bytes of a tile fill (R197): header, zero descriptors and zero lines. -/
def tileFill (rows fmt dst : Nat) (m : Mem) : Mem :=
  ((((m.clear dst (actTileBytes rows)).putLe dst 4 0xAC715EED).putLe (dst + 4) 1 fmt).putLe (dst + 5) 1
    1).putLe (dst + 6) 2 rows |>.putLe (dst + 8) 2 (rows + 255)

/-- The descriptor and the diagonal bytes of token row `r`, from the plain row at `a` of `src`, in ascending order. -/
def rowWrites (src : Mem) (a dst r : Nat) : List (Nat × Nat × (Mem → Mem)) :=
  (rowDesc dst r, 8, fun (m : Mem) => m.copyIn (rowDesc dst r) src (a + 256) 8) ::
  ((List.range 256).map fun k =>
    (element dst r k, 1, fun (m : Mem) => m.put (element dst r k) (src.get (a + k))))

/-- What a burst writes at `d` from the memory that holds its source at `a` (R196-R198): request 0 of a tile writes the
whole of it. -/
def Burst.writes (src : Mem) (a d : Nat) : Burst → List (Nat × Nat × (Mem → Mem))
  | .idle => []
  | .copy n => [(d, n, fun m => m.copyIn d src a n)]
  | .row _ r rows =>
    if r = 0 then
      [(d, actTileBytes rows, fun m =>
        (rowWrites src a d 0).foldl (fun m w => w.2.2 m) (tileFill rows (src.getLe (a + 261) 1) d m))]
    else rowWrites src a d r

/-- The destination spans of a burst at `d`, in ascending order. -/
def Burst.spans (u : Burst) (d : Nat) : List (Nat × Nat) := (u.writes [] 0 d).map fun w => (w.1, w.2.1)

/-- Free bytes over the spans of a burst: undefined destination bytes (R196, R206). -/
def freeWrites (draw : Nat) (spans : List (Nat × Nat)) : List (Nat × Nat × (Mem → Mem)) :=
  spans.map fun e => (e.1, e.2, fun m => m.putBytes e.1 (freeBytes draw e.1 e.2))

/-- Spans cut at the boundaries of space tiles. -/
def tilePieces (spans : List (Nat × Nat)) : List (Nat × Nat) :=
  spans.flatMap fun e => (tilesOf e.1 e.2).map fun t =>
    let lo := Nat.max e.1 (e.1 / 2 ^ 31 * 2 ^ 31 + t * 65536)
    (lo, Nat.min (e.1 + e.2) (e.1 / 2 ^ 31 * 2 ^ 31 + (t + 1) * 65536) - lo)

/-- The destination bytes of a stopped burst are undefined (R206): free bytes, wherever the destination can be
written. -/
def State.undefine (s : State) (q : Req) (sp : Nat) (spans : List (Nat × Nat)) : State :=
  let draw := s.benchDraws q.bench
  ((if sp = 1 then spans else tilePieces spans).foldl (fun t e =>
    State.haulPut q sp (fun u => u) (freeWrites draw [e]) t) (s.drawn q.bench 1))

/-- The first failing address of a burst's own addresses (R194, R122), and whether it is one of the destination. -/
def LineDesc.badAddress (x : LineDesc) (u : Burst) (a d : Int) : Option (Bool × Int) :=
  match firstOutside x.srcSpace a u.srcBytes with
  | some e => some (false, e)
  | none =>
    if x.mode = 1 ∧ a % 64 ≠ 0 then some (false, a)
    else if (firstOutside x.dstSpace d 1).isSome ∨ d % 64 ≠ 0 then some (true, d)
    else ((u.spans d.toNat).findSome? fun e => firstOutside x.dstSpace e.1 e.2).map fun e => (true, e)

/-- True when the engine of region `r` reaches address `a` of space `sp` across the die bridge (R16). -/
def acrossBridge (r sp a : Nat) : Bool := sp == 2 && addrDie a != dieOf r

/-- The burst `u` of request `q` from `a` to `d`, whose addresses are right, in the engine of region `r`; `k` records
that it has moved. An error response to a read across the die bridge is a bus error (R205); one to a write comes after
the burst, before its request completes. -/
def State.runBurst (s : State) (r : Nat) (q : Req) (x : LineDesc) (a d : Nat) (u : Burst)
    (k : Moved → State → State) : Grant × State :=
  match s.reachBurst r q x.srcSpace a u.srcBytes x.dstSpace d (u.spans d) with
  | (some (.stop c w e sp), t) => (.stop c w e sp, t.undefine q x.dstSpace (u.spans d))
  | (some g, t) => (g, t)
  | (none, t) =>
    let far := acrossBridge r x.srcSpace a || acrossBridge r x.dstSpace d
    let draw := t.benchDraws q.bench
    let t0 := if far then t.drawn q.bench 1 else t
    if acrossBridge r x.srcSpace a && Config.bridgeError r draw then
      (.stop 0x07 false a 2, t0.undefine q x.dstSpace (u.spans d))
    else
      t0.haulRead q.bench x.srcSpace a u.srcBytes fun v =>
        let m : Moved := { order := q.order, burst := u, dst := d, append := x.append && x.mode != 1
                           crossing := if acrossBridge r x.dstSpace d then some draw else none }
        if x.mode = 1 ∧ x.srcSpace = x.dstSpace ∧ overlaps a u.srcBytes d u.srcBytes = true then
          (.moved, State.haulPut q x.dstSpace (k m) (freeWrites (v.benchDraws q.bench) (u.spans d))
            (v.drawn q.bench 1))
        else (.moved, State.haulPut q x.dstSpace (k m) (u.writes (v.spaceMem q.bench x.srcSpace) a d) v)

/-- A burst from the exact addresses of R194: the ranges and the alignment of R122 first. -/
def State.moveBurst (s : State) (r : Nat) (q : Req) (x : LineDesc) (params : List Int) (u : Burst)
    (k : Moved → State → State) : Grant × State :=
  let d := x.dst params q.loopIdx q.index
  let a := match u with
    | .row e _ _ => x.src params q.loopIdx e
    | _ => x.src params q.loopIdx q.index
  if u = .idle then (.moved, k { order := q.order, burst := u, dst := 0, append := false } s)
  else
    match x.badAddress u a d with
    | some (w, e) => (.stop 0x03 w e (if w then x.dstSpace else x.srcSpace), s)
    | none => s.runBurst r q x a.toNat d.toNat u k

/-- True when the gather list at `a` keeps Table 6.3 (R198). -/
def gatherOk (m : Mem) (a : Nat) : Bool :=
  decide (m.getLe a 2 ≤ 256) && m.zeroAt (a + 2) 6 &&
    (List.range (Nat.min 256 (m.getLe a 2))).all fun i => decide (m.getLe (a + 8 + 2 * i) 2 < 1024)

/-- The entries of a gather list that are moved. -/
def gatherEntries (m : Mem) (a : Nat) : List Nat :=
  (List.range (m.getLe a 2)).map fun i => m.getLe (a + 8 + 2 * i) 2

/-- The parameter words of the execution that bench `b` works for. -/
def State.benchParams (s : State) (b : Nat) : List Int := (s.prog (s.benchProg b)).params

/-- The request `q` of the engine of region `r` granted: its descriptor is checked, request 0 of a gather
reads its list, and the burst runs (R193, R198); `k` records that it has moved. -/
def State.grantRequest (s : State) (r : Nat) (q : Req) (k : Moved → State → State) : Grant × State :=
  let l := tget {} (s.region r).haul.lines q.line
  let x := lineDescOf l.desc
  let ps := s.benchParams q.bench
  if lineDescOk l.desc = false then (.stop 0x01 false x.srcBase x.srcSpace, s)
  else if x.mode = 3 ∧ q.index = 0 then
    match firstOutside 1 x.list 520 with
    | some e => (.stop 0x03 false e 1, s)
    | none =>
      s.haulRead q.bench 1 x.list 520 fun t =>
        let m := (t.bench q.bench).t0
        if gatherOk m x.list then
          let g := gatherEntries m x.list
          (t.modHaul r fun h => { h with
            lines := tmod {} h.lines q.line fun y => { y with gather := g } }).moveBurst r q x ps (x.burstOf g q.index) k
        else (.stop 0x02 false x.list 1, t)
  else s.moveBurst r q x ps (x.burstOf l.gather q.index) k

/-! ## Arbitration (R200, R201, R204) -/

/-- The oldest request of channel `c` whose burst has not run. -/
def Haul.candidate (h : Haul) (c : Nat) : Option Req :=
  if h.isArmed c then
    h.reqs.find? fun q => h.channelOf q.line == c && !(h.done.any fun m => m.order == q.order)
  else none

/-- Priority of a request's line. -/
def Haul.prioOf (h : Haul) (q : Req) : Nat := descField (tget {} h.lines q.line).desc 2 1

/-- The candidates in the order of R201: a channel passed over at 64 boundaries, then priority, then
round robin after the channel granted last. -/
def Haul.order (h : Haul) : List (Nat × Req) :=
  let key := fun (e : Nat × Req) =>
    (if 64 ≤ tget 0 h.passed e.1 then 0 else 1 + (255 - h.prioOf e.2)) * 16 +
      (e.1 + 15 - h.lastChannel) % 16
  sortBy (fun a b => decide (key a ≤ key b))
    ((List.range 16).filterMap fun c => (h.candidate c).map fun q => (c, q))

/-- True when the candidate of a channel could be granted at this boundary. -/
def State.isReady (s : State) (r : Nat) (q : Req) : Bool := (s.grantRequest r q fun _ t => t).1 != .waiting

/-- The boundary counts after channel `c` has been granted: every other ready channel was passed over. -/
def State.passOver (s : State) (r c : Nat) : Table Nat :=
  let h := (s.region r).haul
  h.order.foldl (fun t e =>
    if e.1 = c then tset t c 0
    else if s.isReady r e.2 then tset t e.1 (tget 0 t e.1 + 1) else t) h.passed

/-! ## Bus errors (R205, R206) -/

/-- RG_HE_ERR0 of a failing request (Table 8.6). -/
def err0Of (code channel line bench : Nat) (write : Bool) (index : Nat) : DWord :=
  BitVec.ofNat 64 (code + 256 * channel + 4096 * line + 262144 * bench + 2097152 * b2n write +
    4294967296 * index)

/-- RG_HE_ERR1 of a failing access. -/
def err1Of (addr : Int) (space : Nat) : DWord :=
  BitVec.ofNat 64 (wrapNat 48 addr + 2 ^ 48 * space)

/-- Functions with a program bound in region `r`. -/
def State.functionsIn (s : State) (r : Nat) : List Nat :=
  ((List.range 5).filterMap fun i => (s.bench (5 * r + i)).bind.map (·.fn)).eraseDups

/-- The engine of region `r` stops at a bus error (R206): every channel halts, the record is written
unless one is held, the stop is journalled and its event raised. -/
def State.haulStop (s : State) (r : Nat) (q : Req) (code : Nat) (write : Bool) (addr : Int)
    (space : Nat) : State :=
  let s1 := s.modHaul r fun h =>
    if h.errValid then { h with armed := 0, stopped := true, overrun := true, stops := h.stops + 1 }
    else { h with
      armed := 0, stopped := true, errValid := true, stops := h.stops + 1
      err0 := err0Of code (h.channelOf q.line) q.line (q.bench % 5) write q.index
      err1 := err1Of addr space }
  let s2 := s1.journal (s1.stamped (dieOf r)
    { kind := 0x0A, region := r, bench := q.bench, detail := code
      address := BitVec.ofNat 64 (wrapNat 48 addr) })
  s2.raiseAlso (0x20 + r) 0xC2 (s.functionsIn r)

/-- The candidates tried in order: those that must wait are passed over, the first other one is served.
-/
def State.serveHaul (s0 : State) (r : Nat) : List (Nat × Req) → State → State
  | [], s => s
  | (c, q) :: rest, s =>
    match s.grantRequest r q fun m t => t.modHaul r fun h => { h with
        done := h.done ++ [m], lastChannel := c, passed := s0.passOver r c } with
    | (.waiting, t) => s0.serveHaul r rest t
    | (.moved, t) => t
    | (.ended, t) => t
    | (.reset, t) => t
    | (.stop code write addr space, t) => t.haulStop r q code write addr space

/-- BURST_GRANT (R201): at a burst boundary of the engine of region `region`, a ready channel is granted
and its burst moves its data; a bus error stops the engine. -/
def execBurstGrant (region : Nat) (s : State) : Host.Outcome State Fault Refusal :=
  .next (if (s.region region).st = .active ∧ (s.region region).haul.stopped = false then
      s.after ((s.serveHaul region (s.region region).haul.order s).busy region)
    else s)

/-- The oldest request of a line with the record of its burst, once that has finished its data-path cycles. -/
def Haul.finished (h : Haul) (line : Nat) : Option (Req × Moved) :=
  (h.reqs.find? fun q => q.line == line).bind fun q => (h.done.find? fun m => m.order == q.order).map fun m => (q, m)

/-- A request whose burst has moved completes (R203): it leaves its line, and the counters of Table 8.7 advance. -/
def State.requestDone (s : State) (r : Nat) (q : Req) (m : Moved) : State :=
  (s.modHaul r fun h => { h with
    reqs := h.reqs.filter fun o => o.order != q.order
    done := h.done.filter fun o => o.order != q.order
    bursts := h.bursts + 1, bytes := h.bytes + BitVec.ofNat 64 m.burst.bytes }).busy r

/-- REQUEST_COMPLETE (R199, R203): the oldest request of line `line` completes once its burst has run; a
request with append that moved a row appends its row first, and stays pending while the row queue is full. Writes that
the target across the die bridge answers with an error stop the engine instead, and the request stays pending (R205,
R206). -/
def execRequestComplete (region line : Nat) (s : State) : Host.Outcome State Fault Refusal :=
  .next (match (s.region region).haul.finished line with
  | none => s
  | some (q, m) =>
    let app := m.append && m.burst != .idle
    if (s.region region).st ≠ .active ∨ (app = true ∧ 512 ≤ (s.bench q.bench).gate.rows.length) then s
    else if m.crossing.any (Config.bridgeError region) then
      ((s.modHaul region fun h => { h with done := h.done.filter fun o => o.order != q.order }).undefine q 2
        (m.burst.spans m.dst)).haulStop region q 0x07 true m.dst 2
    else (if app then s.appendRow q.bench else s).requestDone region q m)

/-! ## Register writes of the host driver (R195, R207) -/

/-- Channels of the groups that function `fn` may arm: those that it or its VFs hold, and those that no
program holds (R207, R293). -/
def State.armable (s : State) (fn r c : Nat) : Bool :=
  match s.groupHolder r (c / 4) with
  | none => true
  | some k => (pfGroup fn).contains (k / 16)

/-- Channels set in a mask for which `p` holds. -/
def maskWhere (mask : Nat) (p : Nat → Bool) : Nat :=
  ((List.range 16).filter fun c => bitOf mask c && p c).foldl (fun v c => v + 2 ^ c) 0

/-- RG_HE_STAT written: the W1C bits (R8). Clearing err_valid clears stopped and re-arms the channels of
unbound groups (R207). -/
def State.writeHeStat (s : State) (r : Nat) (v : Nat) : State :=
  s.modHaul r fun h =>
    let clear := bitOf v 17 && h.errValid
    { h with
      errValid := h.errValid && !bitOf v 17
      descDropped := h.descDropped && !bitOf v 18
      overrun := h.overrun && !bitOf v 19
      stopped := h.stopped && !clear
      armed := if clear then h.armed ||| maskWhere 0xFFFF fun c => (s.groupHolder r (c / 4)).isNone
        else h.armed }

/-- RG_HE_ARM written (R207): ignored while err_valid is 1. -/
def State.writeHeArm (s : State) (fn r v : Nat) : State :=
  if (s.region r).haul.errValid then s
  else s.modHaul r fun h => { h with armed := h.armed ||| maskWhere v (s.armable fn r) }

/-- A line descriptor written (R192, R195). -/
def State.writeLine (s : State) (r l : Nat) (d : BitVec 512) : State :=
  s.modHaul r fun h =>
    if h.isArmed (h.channelOf l) then
      if 0 < h.pending l then { h with descDropped := true }
      else { h with lines := tset h.lines l { desc := d, index := 0, gather := [] } }
    else { h with lines := tmod {} h.lines l fun x => { x with desc := d } }

end Sys2Proof.Machine
end

