-- ==== Sys2Proof/Machine/Extents.lean ====
section
/-! DEFINITION. The host's commands on the tensor space: Subsystem Local Memory, extents, quotas, the T3
size and hoist lists (R166-R169, R181, R184, R309-R311). -/

namespace Sys2Proof.Machine

/-- 2 MiB, the most that a memory command moves (MDTS, R298). -/
def mdtsBytes : Nat := 2097152

/-! ## Subsystem Local Memory (R309) -/

/-- MEMORY_READ. -/
def execMemoryRead (c : Src) (addr len : Nat) (s : State) : Host.Outcome State Fault Refusal :=
  .next (hostCmd c .operational (fun t =>
    if len = 0 ∨ mdtsBytes < len then t.done c .invalidField else t.startTry c (.memRead addr len)) s)

/-- MEMORY_WRITE. -/
def execMemoryWrite (c : Src) (addr : Nat) (data : Buf) (s : State) : Host.Outcome State Fault Refusal :=
  .next (hostCmd c .operational (fun t =>
    if data.len = 0 ∨ mdtsBytes < data.len then t.done c .invalidField
    else t.startTry c (.memWrite addr data)) s)

/-- MEMORY_COPY: `blocks` logical blocks between a memory range and a namespace. -/
def execMemoryCopy (c : Src) (addr nsid slba blocks : Nat) (toNvm : Bool) (s : State) :
    Host.Outcome State Fault Refusal :=
  .next (hostCmd c .operational (fun t =>
    match t.lbaCheck c.fn nsid slba blocks with
    | .success =>
      if blocks = 0 ∨ mdtsBlocks < blocks then t.done c .invalidField
      else t.startTry c (.memCopy addr nsid slba blocks toNvm)
    | st => t.done c st) s)

/-! ## Address fields (R310) -/

/-- The address that Command Dwords 10 and 11 hold; none when a reserved bit is set. -/
def addrOf (dw10 dw11 : Word) : Option Nat :=
  if fld dw11 31 16 = 0 then some (dw10.toNat + 2 ^ 32 * fld dw11 15 0) else none

/-- The extent that an address names, which function `fn` must own: die and slot. -/
def State.ownExtent (s : State) (fn : Nat) (dw10 dw11 : Word) : Option (Nat × Nat) :=
  match addrOf dw10 dw11 with
  | none => none
  | some a =>
    let e := s.extent (addrDie a) (addrSlot a)
    if isBase a ∧ e.st ≠ 0 ∧ e.owner = fn then some (addrDie a, addrSlot a) else none

/-- A command on an extent of the issuing function; Invalid Field where the address names none, 0xC0 where
its face die is held in RESET (R438). -/
def extentCmd (c : Src) (dw10 dw11 : Word) (f : Nat → Nat → State → State) (s : State) : State :=
  hostCmd c .operational (fun t =>
    match t.ownExtent c.fn dw10 dw11 with
    | none =>
      match addrOf dw10 dw11 with
      | none => t.done c .invalidField
      | some a => t.done c (if isBase a ∧ (t.die (addrDie a)).held = true then .vendor 0xC0 else .invalidField)
    | some (d, j) => f d j t) s

/-! ## Extents (R166, R181) -/

/-- EXTENT_CREATE (R166, R182). -/
def execExtentCreate (c : Src) (dw10 : Word) (s : State) : Host.Outcome State Fault Refusal :=
  .next (hostCmd c .operational (fun t =>
    if fld dw10 31 24 ≠ 0 ∨ fld dw10 15 0 < 1 ∨ 32768 < fld dw10 15 0 ∨ fld dw10 18 17 = 0 then
      t.done c .invalidField
    else t.startTry c (.create dw10.toNat)) s)

/-- Executes and scans outstanding that can access an extent (R166). -/
def State.accessors (s : State) (e : Extent) : List Nat :=
  s.host.ops.filterMap fun o =>
    match o.kind with
    | .execute _ _ _ => if e.shared || o.src.fn == e.owner then some o.id else none
    | .scan _ => if e.shared || o.src.fn == e.owner then some o.id else none
    | _ => none

/-- EXTENT_FREE (R166): it takes effect once the executes submitted before it that can access the extent
have ended. An extent that an attached checkpoint set names is kept (R348). -/
def execExtentFree (c : Src) (dw10 dw11 : Word) (s : State) : Host.Outcome State Fault Refusal :=
  .next (extentCmd c dw10 dw11 (fun d j t =>
    if t.inSet d j then t.done c .commandSequenceError
    else t.startOp c (.free d j (t.accessors (t.extent d j)))) s)

/-- The Free commands of slot `j` of die `d` that nothing holds back any more. -/
def State.freesReady (s : State) (d j : Nat) : List Nat :=
  s.host.ops.filterMap fun o =>
    match o.kind with
    | .free e k ws => if e = d ∧ k = j ∧ (ws.all fun w => (s.op w).isNone) = true then some o.id else none
    | _ => none

/-- EXTENT_FREE_EFFECT (R166): a Free of slot `slot` of die `die` takes effect. -/
def execExtentFreeEffect (die slot : Nat) (s : State) : Host.Outcome State Fault Refusal :=
  .next (match s.freesReady die slot with
  | [] => s
  | l => (l.foldl (fun t i => t.finish i .success) (s.freeExtent die slot)).settle)

/-- EXTENT_PIN (R181): pinned in the tier that holds its copy, or moved to a named tier first. -/
def execExtentPin (c : Src) (dw10 dw11 dw12 : Word) (s : State) : Host.Outcome State Fault Refusal :=
  .next (extentCmd c dw10 dw11 (fun d j t =>
    if fld dw12 31 2 ≠ 0 then t.done c .invalidField
    else t.startTry c (.place d j (fld dw12 1 0) true)) s)

/-- EXTENT_UNPIN (R181). -/
def execExtentUnpin (c : Src) (dw10 dw11 : Word) (s : State) : Host.Outcome State Fault Refusal :=
  .next (extentCmd c dw10 dw11 (fun d j t =>
    if (t.extent d j).st = 3 then t.done c .invalidField
    else ((t.modExtent d j fun e => { e with pinned := false, pinOnCommit := false }).done c .success).settle) s)

/-- EXTENT_PLACE (R166): completes when the move commits. -/
def execExtentPlace (c : Src) (dw10 dw11 dw12 : Word) (s : State) : Host.Outcome State Fault Refusal :=
  .next (extentCmd c dw10 dw11 (fun d j t =>
    if fld dw12 31 2 ≠ 0 ∨ fld dw12 1 0 = 0 then t.done c .invalidField
    else t.startTry c (.place d j (fld dw12 1 0) false)) s)

/-! ## T3 size and quotas (R168, R169, R311) -/

/-- True when some extent has a copy in T3. -/
def State.t3InUse (s : State) : Bool :=
  (List.range 2).any fun d => (s.die d).slots.any fun x => x.2.holds 3 x.2.slice

/-- Bytes that namespaces have allocated (R297). -/
def State.allocated (s : State) : Nat :=
  (s.host.namespaces.filter fun e => e.2.active).foldl
    (fun n e => n + 1073741824 * ceilDiv e.2.blocks 262144) 0

/-- TENSOR_SPACE_CONFIGURE (R168, R311). -/
def execTensorSpaceConfigure (c : Src) (dw10 : Word) (s : State) : Host.Outcome State Fault Refusal :=
  .next (pfCmd c .operational (fun t =>
    let gb := fld dw10 13 0
    if fld dw10 31 14 ≠ 0 ∨ 16000 < gb then t.done c .invalidField
    else if t.t3InUse then t.done c .commandSequenceError
    else if t.advertised < t.allocated + gb * 1000000000 then t.done c .insufficientCapacity
    else ((t.modTs fun x => { x with t3Gb := gb }).done c .success).settle) s)

/-- QUOTA_SET (R169). -/
def execQuotaSet (c : Src) (dw10 dw11 : Word) (s : State) : Host.Outcome State Fault Refusal :=
  .next (pfCmd c .operational (fun t =>
    let fn := fld dw10 5 0
    let tier := fld dw10 9 8
    let q := if dw11 = 0xFFFFFFFF#32 then none else some dw11.toNat
    if fld dw10 7 6 ≠ 0 ∨ fld dw10 31 10 ≠ 0 ∨ tier = 0 ∨ !(pfGroup c.fn).contains fn then
      t.done c .invalidField
    else
      ((t.modCtl fn fun k => { k with
        quota1 := if tier = 1 then q else k.quota1
        quota2 := if tier = 2 then q else k.quota2
        quota3 := if tier = 3 then q else k.quota3 }).done c .success).settle) s)

/-! ## Hoist lists (R184) -/

/-- Entry `i` of a hoist list image (Table 7.6). -/
def hoistEntry (m : Mem) (i : Nat) : HoistEntry :=
  let a := 32 + 16 * i
  { extent := m.getLe a 8, layer := m.getLe (a + 8) 2, tier := m.getLe (a + 10) 1
    releaseAfter := bitOf (m.getLe (a + 11) 1) 0 }

/-- The hoist list that an image holds. -/
def hoistListOf (m : Mem) : HoistList :=
  { layers := m.getLe 4 2, lookahead := m.getLe 6 1, wrap := bitOf (m.getLe 7 1) 0
    entries := (List.range (m.getLe 2 2)).map (hoistEntry m) }

/-- True when every layer of a list is at or above the one before it. -/
def ascending : List Nat → Bool
  | a :: b :: r => decide (a ≤ b) && ascending (b :: r)
  | _ => true

/-- The checks of R184 on an image of `len` bytes. -/
def State.hoistOk (s : State) (m : Mem) (len : Nat) : Bool :=
  let h := hoistListOf m
  let n := m.getLe 2 2
  m.getLe 0 1 == 3 && m.getLe 1 1 == 1 && decide (1 ≤ n) && decide (n ≤ 4096) && len == 32 + 16 * n &&
    decide (1 ≤ h.layers) && decide (h.layers ≤ 1024) && decide (h.lookahead ≤ 15) &&
    decide (m.getLe 7 1 ≤ 1) && m.zeroAt 8 24 &&
    ((List.range n).all fun i =>
      let e := hoistEntry m i
      isBase e.extent && (s.extent (addrDie e.extent) (addrSlot e.extent)).st != 0 &&
        decide (e.layer < h.layers) && (e.tier == 1 || e.tier == 2) &&
        decide (m.getLe (32 + 16 * i + 11) 1 ≤ 1) && m.zeroAt (32 + 16 * i + 12) 4) &&
    ascending (h.entries.map (·.layer))

/-- HOIST_LIST_ATTACH (R184): attached to a loaded bench program, in effect from its next execute; length
0 detaches. -/
def execHoistListAttach (c : Src) (dw10 dw11 : Word) (image : Buf) (s : State) :
    Host.Outcome State Fault Refusal :=
  .next (hostCmd c .operational (fun t =>
    let k := progKey c.fn (fld dw10 3 0)
    if fld dw10 31 4 ≠ 0 ∨ (t.prog k).loaded = false ∨ (t.prog k).kind ≠ 2 then t.done c .invalidField
    else if dw11 = 0 then (t.modProg k fun p => { p with hoistNext := none }).done c .success
    else if image.len ≠ dw11.toNat then t.done c .invalidField
    else if t.hoistOk image.bytes image.len then
      (t.modProg k fun p => { p with hoistNext := some (hoistListOf image.bytes) }).done c .success
    else t.doneDw c (.vendor 0xC1) 6 0) s)

end Sys2Proof.Machine
end

