-- ==== Sys2Proof/Machine/Fabric.lean ====
section
/-! DEFINITION. The peer ports and the fabric: the host's peer commands, training and link replay, the
delivery of messages, epochs, and routes that stay unavailable (R320-R345). -/

namespace Sys2Proof.Machine

/-! ## Peer commands (R323, R340, R344) -/

/-- FABRIC_CONFIGURE (R323): stored in the NOR store, in effect from the next cold reset. -/
def execFabricConfigure (c : Src) (dw10 dw11 : Word) (s : State) : Host.Outcome State Fault Refusal :=
  .next (pfCmd c .operational (fun t =>
    if fld dw10 31 18 ≠ 0 ∨ fld dw11 31 16 ≠ 0 ∨ 60000 < fld dw11 15 0 then t.done c .invalidField
    else (t.modMgmt fun m => { m with norFabric := some (dw10, dw11) }).done c .success) s)

/-- The accept or bind of an extent removed. -/
def State.dropWindow (s : State) (d j : Nat) : State :=
  s.modTs fun t => { t with windows := t.windows.filter fun w => !(w.die == d && w.slot == j) }

/-- The accept or bind of an extent replaced by `w`. -/
def State.setWindow (s : State) (w : Window) : State :=
  (s.dropWindow w.die w.slot).modTs fun t => { t with windows := t.windows ++ [w] }

/-- PEER_WINDOW_ACCEPT (R340). -/
def execPeerWindowAccept (c : Src) (dw10 dw11 dw12 : Word) (s : State) :
    Host.Outcome State Fault Refusal :=
  .next (extentCmd c dw10 dw11 (fun d j t =>
    if fld dw12 31 22 ≠ 0 ∨ (t.extent d j).st = 3 then t.done c .invalidField
    else (t.setWindow { die := d, slot := j, accept := true, fn := c.fn, coord := fld dw12 11 0
                        index := fld dw12 15 12, logical := fld dw12 21 16 }).done c .success) s)

/-- PEER_WINDOW_BIND (R340): the remote end is asked to confirm a matching accept; the command completes
on its answer. -/
def execPeerWindowBind (c : Src) (dw10 dw11 dw12 dw13 dw14 dw15 : Word) (s : State) :
    Host.Outcome State Fault Refusal :=
  .next (extentCmd c dw10 dw11 (fun d j t =>
    let e := t.extent d j
    let noSignal := decide (dw15 = 0xFFFFFFFF#32)
    match addrOf dw12 dw13 with
    | none => t.done c .invalidField
    | some r =>
      if isBase r = false ∨ fld dw14 31 12 ≠ 0 ∨ e.st = 3 ∨
          (noSignal = false ∧ (dw15.toNat % 8 ≠ 0 ∨ e.length * 65536 ≤ dw15.toNat)) then
        t.done c .invalidField
      else
        let w : Window := { die := d, slot := j, accept := false, fn := c.fn, coord := fld dw14 11 0
                            remote := r, signalAt := if noSignal then none else some dw15.toNat }
        let t1 := (t.setWindow w).startOp c (.peerBind d j w.coord)
        t1.sendMsg { dst := w.coord, seq := 0, addr := r, payload := Buf.none, kind := .bind e.length, die := d
                     fn := c.fn, op := some t.host.nextOp }) s)

/-- PEER_WINDOW_RELEASE (R344): messages already in the retransmit store are still delivered. A LOST extent accepts Free
only (R188). -/
def execPeerWindowRelease (c : Src) (dw10 dw11 : Word) (s : State) : Host.Outcome State Fault Refusal :=
  .next (extentCmd c dw10 dw11 (fun d j t =>
    if (t.extent d j).st = 3 then t.done c .invalidField else (t.dropWindow d j).done c .success) s)

/-- PEER_COPY (R344): its local range lies within one extent that the issuing function owns. -/
def execPeerCopy (c : Src) (dw10 dw11 dw12 dw13 dw14 dw15 : Word) (s : State) :
    Host.Outcome State Fault Refusal :=
  .next (hostCmd c .operational (fun t =>
    match addrOf dw10 dw11, addrOf dw12 dw13 with
    | some a, some r =>
      let e := t.extent (addrDie a) (addrSlot a)
      let n := dw14.toNat
      if n = 0 ∨ mdtsBytes < n ∨ fld dw15 31 12 ≠ 0 ∨ e.st = 0 ∨ e.owner ≠ c.fn ∨
          e.length * 65536 < a % 2 ^ 31 + n ∨ 2 ^ 48 < r + n then t.done c .invalidField
      else t.startTry c (.peerCopy a r n (fld dw15 11 0) false)
    | _, _ => t.done c .invalidField) s)

/-! ## Events and epochs (R334, R335, R339) -/

/-- True when the module answers on its peer ports: it holds a configuration, and no cold reset is unfinished (R27,
R323). -/
def State.linkLogic (s : State) : Bool :=
  s.fabric.configured && s.sec.booted && s.power.on && !(s.resets.any fun r => r.scope == 4)

/-- Ports that are ACTIVE. -/
def State.activePorts (s : State) : List Nat := (List.range 8).filter fun p => s.portActive p

/-- An event as the payload of its flit (notes/assumptions/58.md). -/
def FabEvent.payload (e : FabEvent) : Buf :=
  Buf.ofBytes (leBytes 4 e.base ++ leBytes 2 e.originator ++ leBytes 1 e.kind ++ leBytes 4 e.subject)

/-- An event sent on every ACTIVE port (R334). -/
def State.floodEvent (s : State) (e : FabEvent) : State :=
  s.activePorts.foldl (fun t p =>
    t.sendFlit p { kind := 3, dst := (t.port p).farIdent, src := s.fabric.ident, epoch := s.fabric.epoch
                   payload := e.payload }) s

/-- An event taken up: forwarded where it has not been seen before, held, and the 2 ms wait begun. -/
def State.takeEvent (s : State) (e : FabEvent) : State :=
  if s.fabric.heldEvents.contains e then s
  else ((s.modFabric fun f => { f with
    heldEvents := f.heldEvents ++ [e], waiting := f.waiting || e.base == f.epoch })).floodEvent e

/-- An event that this module proposes (R334). -/
def State.propose (s : State) (originator kind subject : Nat) : State :=
  s.takeEvent { base := s.fabric.epoch, originator := originator, kind := kind, subject := subject }

/-- The change that an event makes to the fabric state record (Table 13.6). -/
def Fabric.applyEvent (f : Fabric) (e : FabEvent) : Fabric :=
  let link := f.linkKey (e.subject / 16) (e.subject % 16)
  if e.kind = 1 then { f with down := if f.down.contains link then f.down else f.down ++ [link] }
  else if e.kind = 2 then { f with down := f.down.filter fun x => x != link }
  else { f with assumed := if f.assumed.contains (e.subject % 8192, e.subject / 8192) then f.assumed
        else f.assumed ++ [(e.subject % 8192, e.subject / 8192)] }

/-- The end of this spare's takeover of coordinates `c` (R364 step 4). -/
def State.takeoverEnds (s : State) (c : Nat) : State :=
  let s1 := s.modFabric fun f => { f with assumedHere := some c, sendSeq := [], expectSeq := [] }
  if s.ckpt.phase = 4 ∧ s.ckpt.takeoverCoord = some c then
    let r := if s.ckpt.localCuts.isEmpty then 2 else 1
    let s2 := s1.modCkpt fun k => { k with
      phase := 0, takeoverResult := r, takeoverCoord := none, takeoverOp := none }
    let s3 := match s.ckpt.takeoverOp with
      | none => s2
      | some op => s2.finish op .success
    s3.raise 0x45 0xC5
  else s1

/-- What every module does when spare `sp` has assumed coordinates `c` (R339, R351, R361). -/
def State.spareAssumed (s : State) (c sp : Nat) : State :=
  let mine := s.fabric.spare && s.fabric.selfIdent == sp
  let s1 := s.abandonMsgs (fun m => m.dst == c) (.vendor 0xC6)
  let s2 := s1.modFabric fun f => { f with sendSeq := tdel f.sendSeq c, expectSeq := tdel f.expectSeq c }
  let s3 := s2.modTs fun t => { t with windows := t.windows.filter fun w => w.accept || w.coord != c }
  let s4 := if c = s.fabric.partner ∧ s.fabric.ident < 4096 ∧ mine = false then s3.partnerLost else s3
  (if mine then s4.takeoverEnds c else s4).interruption

/-- Flits that wait for a route tried again on the routes in force (R332): those of this module, and those held for other
modules, whose receive slots are freed. -/
def State.forwardHeld (s : State) : State :=
  let s1 := s.fabric.stranded.foldl (fun t x => t.routeFlit x x.came) (s.modFabric fun f => { f with stranded := [] })
  (List.range 8).foldl (fun t p =>
    ((t.port p).received.foldl (fun u x =>
      match u.exitPort x.dst with
      | none => u
      | some _ => (u.modPort p fun y => { y with
          received := y.received.filter fun z => z != x
          freed := listMod y.freed x.vc (· + 1) }).routeFlit x (some p)) t).pump p) s1

/-- True when spare 0 of this board is absent from the live graph or has assumed coordinates. -/
def Fabric.spare0Gone (f : Fabric) : Bool :=
  let sp := spareIdent f.board 0
  (f.coordOfSpare sp).isSome ||
    (List.range 8).all fun p => !f.linkUp sp p

/-- A takeover of coordinates `c` begins (R364 step 1): event 0x44, and the partner of `c` is asked for its image. -/
def State.beginTakeover (s : State) (c : Nat) (op : Option Nat) : State :=
  ((s.modCkpt fun k => { k with phase := 4, takeoverCoord := some c, takeoverOp := op }).raise 0x44 0xC5).sendMsg
    { dst := boardCoord (coordBoard c) (coordPosition c ^^^ 1), seq := 0, addr := 0, payload := Buf.none
      kind := .imageAsk }

/-- A spare with auto_takeover starts a takeover of failed coordinates of its board (R364). -/
def State.autoTakeover (s : State) : State :=
  let f := s.fabric
  if s.ckpt.autoTakeover ∧ s.ckpt.phase = 0 ∧ f.spare ∧ f.assumedHere = none ∧
      (f.spareIndex = 0 ∨ f.spare0Gone) then
    match ((List.range 8).map (boardCoord f.board)).find?
        fun c => (f.spareOf c).isNone && (f.links c).isEmpty with
    | none => s
    | some c => s.beginTakeover c none
  else s

/-- Spares that a new record shows as having assumed coordinates, which the old one did not. -/
def newlyAssumed (old new : List (Nat × Nat)) : List (Nat × Nat) := new.filter fun e => !old.contains e

/-- The module stands in a new epoch: what spares have assumed takes effect, waiting flits take the new
routes, and a spare may begin a takeover. -/
def State.enterEpoch (s : State) (old : List (Nat × Nat)) : State :=
  let s1 := s.modFabric fun f => { f with redraws := f.redraws + 1, shown := true }
  let s2 := (newlyAssumed old s.fabric.assumed).foldl (fun t e => t.spareAssumed e.1 e.2) s1
  (s2.forwardHeld.autoTakeover.stream).settle

/-- EPOCH_ENTER (R334): the 2 ms wait has passed. The events held with this base are applied in ascending
order of originator, kind and subject, and the next epoch begins. -/
def execEpochEnter (s : State) : Host.Outcome State Fault Refusal :=
  let f := s.fabric
  .next (if f.waiting = false ∨ s.linkLogic = false then s
  else
    let mine := sortBy (fun a b => decide (a.originator < b.originator ∨ (a.originator = b.originator ∧
      (a.kind < b.kind ∨ (a.kind = b.kind ∧ a.subject ≤ b.subject)))))
      (f.heldEvents.filter fun e => e.base == f.epoch)
    let g := mine.foldl Fabric.applyEvent f
    let n := (f.epoch + 1) % 2 ^ 32
    let rest := f.heldEvents.filter fun e => decide (f.epoch < e.base)
    (s.modFabric fun _ => { g with epoch := n, heldEvents := rest
                                   waiting := rest.any fun e => e.base == n }).enterEpoch f.assumed)

/-- EVENT (R334): an event of Table 13.6 arrives; one with an old base is proposed again. -/
def execEvent (base originator kind subject : Nat) (s : State) : Host.Outcome State Fault Refusal :=
  .next (if s.linkLogic = false then s
  else
    let e : FabEvent := { base := base, originator := originator, kind := kind, subject := subject }
    let s1 := s.consume fun x => x.kind == 3 && x.payload == e.payload
    if base < s1.fabric.epoch then s1.propose originator kind subject
    else s1.takeEvent e)

/-- The record that was copied takes effect with its epoch. -/
def State.enterCopied (s : State) : State :=
  match s.fabric.pendingEpoch with
  | none => s
  | some (n, down, assumed) =>
    let old := s.fabric.assumed
    (s.modFabric fun f => { f with
      pendingEpoch := none, epoch := n, down := down, assumed := assumed
      heldEvents := f.heldEvents.filter fun e => decide (n ≤ e.base)
      waiting := f.heldEvents.any fun e => e.base == n }).enterEpoch old

/-- STATE (R335): a far end's record, copied by a module with a lower epoch; the epoch is entered once the
port is ACTIVE. -/
def execState (port farEpoch : Nat) (down assumed : List (Nat × Nat)) (s : State) :
    Host.Outcome State Fault Refusal :=
  let p := s.port port
  .next (if (p.st = 4 ∨ p.st = 5) ∧ s.fabric.epoch < farEpoch ∧ s.linkLogic = true then
    let s1 := s.consume fun x => x.kind == 4 && x.src == p.farIdent
    let s2 := s1.modFabric fun f => { f with
      pendingEpoch := some (farEpoch, (down.map fun e => f.linkKey e.1 e.2).eraseDups, assumed) }
    if p.st = 5 then s2.enterCopied else s2
  else s)

/-! ## Training (R322, R324-R326) -/

/-- Lanes of a mask, in ascending order. -/
def lanesOf (m : Nat) : List Nat := (List.range 4).filter fun l => bitOf m l

/-- A mask of the lanes listed. -/
def laneMask (l : List Nat) : Nat := l.foldl (fun m i => m + 2 ^ i) 0

/-- The active mask that two offers agree on (R325): four lanes, the lowest two of two or three, else
none. -/
def agreedMask (a b : Nat) : Nat :=
  let l := (lanesOf a).filter fun i => bitOf b i
  if l.length = 4 then 0xF else if 2 ≤ l.length then laneMask (l.take 2) else 0

/-- A lane retired (R326): its port is left in RETRAIN, or with fewer than two lanes in RETIRED; a disabled one stays so
(R324). -/
def State.retireLane (s : State) (port lane : Nat) : State :=
  let p := s.port port
  if bitOf p.retiredLanes lane then s
  else
    let m := p.retiredLanes + 2 ^ lane
    let dead := decide ((lanesOf (15 - m)).length < 2)
    let s1 := s.modPort port fun q => { q with
      retiredLanes := m
      st := if dead then 9 else if q.st = 8 then 8 else 6 }
    let s2 := s1.repair 0x0D 0x01 (4 * port + lane) 0
    if dead then s2.repair 0x0E 0x01 port 0 else s2

/-- PORT_TRAIN (R324-R326): from DETECT through EQUALISE and ALIGN to EXCHANGE. Lanes that fail count
towards their retirement, which leaves the port in RETRAIN; too few agreed lanes start the training again. -/
def execPortTrain (port : Nat) (present : Bool) (failed farMask : Nat) (s : State) :
    Host.Outcome State Fault Refusal :=
  let p := s.port port
  .next (if s.linkLogic = false ∨ p.disable = true ∨ !(p.st == 0 || p.st == 1 || p.st == 7) then s
  else if present = false then s.modPort port fun q => { q with st := 1, exchanged := false }
  else
    let tried := lanesOf (15 - p.retiredLanes)
    let bad := tried.filter fun l => bitOf failed l
    let s1 := s.modPort port fun q => { q with
      eqFails := tried.foldl (fun t l => tset t l (if bad.contains l then tget 0 t l + 1 else 0)) q.eqFails }
    let s2 := bad.foldl (fun t l =>
      if 3 ≤ tget 0 (t.port port).eqFails l then t.retireLane port l else t) s1
    if (s2.port port).retiredLanes ≠ p.retiredLanes then s2
    else
      let m := agreedMask (laneMask (tried.filter fun l => !bad.contains l)) farMask
      s2.modPort port fun q => { q with st := if m = 0 then 1 else 4, activeLanes := m, exchanged := false })

/-- The identifier and port that port `p` of this module expects to face (R322). -/
def Fabric.faces (f : Fabric) (p farIdent farPort farEpoch : Nat) : Bool :=
  if f.spare then farIdent == boardCoord f.board p && farPort == 6 + f.spareIndex
  else if p < 6 then farIdent == f.neighbour f.ident p && farPort == (p ^^^ 1)
  else
    let sp := spareIdent f.board (p - 6)
    farPort == f.position && (farIdent == sp || f.coordOfSpare sp == some farIdent ||
      (decide (f.epoch < farEpoch) && decide (farIdent < 4096) && coordBoard farIdent == f.board))

/-- The RESYNCs due when a port is ACTIVE: after a cold reset one naming 0 to every coordinate of the live
graph (R389), after a module reset one to each destination affected (R338). One Recovery Journal entry stands for
the RESYNCs sent together (notes/assumptions/23.md). -/
def State.sendResyncs (s : State) : State :=
  let f := s.fabric
  let everyone := if f.coldResync then
      (List.range 4096).filter fun c => f.inTorus c && c != f.ident && (f.spareOf c).isNone
    else []
  let s0 := if everyone.isEmpty && f.resyncDue.isEmpty then s
    else s.journal (s.stamped 2 { kind := 0x0C })
  let s1 := s0.modFabric fun f => { f with coldResync := false, resyncDue := [] }
  let s2 := everyone.foldl (fun t c => t.sendControl 5 c 0) s1
  f.resyncDue.foldl (fun t c => if everyone.contains c then t else
    t.sendControl 5 c (tget 0 f.sendSeq c)) s2

/-- A port has become ACTIVE (R332, R335, R338, R389). -/
def State.onActive (s : State) (port : Nat) : State :=
  let s1 := (s.modPort port fun q => { q with switched := false }).modFabric fun f => { f with shown := true }
  ((s1.enterCopied.pump port).sendResyncs).forwardHeld

/-- The fabric state record in 5 KiB (DEDUCED, notes/assumptions/58.md): a byte for each coordinate identifier with a bit
for each link that it names, 1 when the link is down, then a byte for each spare identifier, 0x80 and the position of its
board whose coordinates the spare has assumed. -/
def Fabric.record (f : Fabric) : Mem :=
  let links := f.down.foldl (fun (m : Mem) e => m.put e.1 (m.get e.1 ||| BitVec.ofNat 8 (2 ^ e.2))) []
  f.assumed.foldl (fun (m : Mem) e => m.put e.2 (BitVec.ofNat 8 (0x80 + coordPosition e.1))) links

/-- This module's record sent in STATE flits (R335): 5 KiB in 9 flits. -/
def State.sendState (s : State) (port : Nat) : State :=
  let m := s.fabric.record
  (List.range 9).foldl (fun t i =>
    let len := Nat.min 608 (5120 - 608 * i)
    t.sendFlit port
      { kind := 4, dst := (s.port port).farIdent, src := s.fabric.ident, epoch := s.fabric.epoch, address := 608 * i
        payload := { len := len, bytes := m.slice (608 * i) len 0 }, last := i == 8 }) s

/-- EXCHANGE (R322): both ends exchange identifier, port and epoch. The link's sequences and credits start anew, and the
flits that were not acknowledged over it before are lost (DEDUCED from the example of R339's section,
notes/assumptions/51.md); those held for other modules wait here for a route. -/
def execExchange (port farIdent farPort farEpoch : Nat) (s : State) : Host.Outcome State Fault Refusal :=
  .next (if (s.port port).st ≠ 4 ∨ s.linkLogic = false then s
  else
    let held := (s.port port).received.map fun x => { x with came := some port }
    let s1 := (s.modPort port fun q => { q with
      farIdent := farIdent, farPort := farPort, farEpoch := farEpoch, received := [] }).modFabric fun f => { f with
        stranded := f.stranded ++ held }
    if s.fabric.faces port farIdent farPort farEpoch then
      let s2 := s1.modPort port fun q => { q with
        st := 5, nextSeq := 0, expectSeq := 0, sendNak := false, ackDue := false, replayRun := 0, exchanged := true
        credits := [64, 64, 64, 64], freed := [0, 0, 0, 0], replayBuf := [] }
      let s3 := s2.onActive port
      if farEpoch < s.fabric.epoch then s3.sendState port else s3
    else s1.modPort port fun q => { q with st := 7 })

/-- RETRAIN (R324-R326): the port retrains on the lanes that both ends offer and returns to ACTIVE, or falls to DETECT: when
it fails, with fewer than two lanes, or with a far end not yet identified. -/
def execRetrain (port : Nat) (far : Option (Nat × Nat)) (s : State) : Host.Outcome State Fault Refusal :=
  let p := s.port port
  .next (if (p.st ≠ 5 ∧ p.st ≠ 6) ∨ s.linkLogic = false then s
  else
    let m := match far with
      | none => 0
      | some (failed, offer) => agreedMask (laneMask ((lanesOf (15 - p.retiredLanes)).filter fun l => !bitOf failed l)) offer
    let ok := decide (m ≠ 0) && p.exchanged
    let s1 := s.modPort port fun q => { q with
      retrains := q.retrains + 1, replayRun := 0, st := if ok then 5 else 1
      activeLanes := if ok then m else 0, exchanged := ok }
    if ok then s1.onActive port else s1)

/-- A port taken to DISABLED, or back to DOWN (R324). -/
def State.setDisable (s : State) (port : Nat) (on : Bool) : State :=
  s.modPort port fun q => { q with
    disable := on, st := if q.st = 9 then 9 else if on then 8 else if q.st = 8 then 0 else q.st
    activeLanes := if on then 0 else q.activeLanes }

/-- ALTERNATE_PORT_SWITCH (R332): the port has not been ACTIVE for 10 µs; what waits for it takes the
alternates. -/
def execAlternatePortSwitch (port : Nat) (s : State) : Host.Outcome State Fault Refusal :=
  .next (if s.portActive port ∨ s.linkLogic = false then s
  else
    let link := fun x : Flit => x.kind == 3 || x.kind == 4
    let q := (s.port port).txQueue.filter fun x => !link x
    let s1 := s.modPort port fun p => { p with switched := true, txQueue := p.txQueue.filter link }
    (q.foldl (fun t x => t.routeFlit { x with vc := x.vcIn } x.came) s1).forwardHeld)

/-- PORT_DOWN_PROPOSE (R334): the port has been down long enough, or is disabled, retired or MISWIRED. -/
def execPortDownPropose (port : Nat) (s : State) : Host.Outcome State Fault Refusal :=
  .next (if s.linkLogic = false ∨ s.portActive port ∨ s.fabric.linkUp s.fabric.selfIdent port = false then s
  else s.propose s.fabric.ident 1 (port + 16 * s.fabric.selfIdent))

/-- PORT_UP_PROPOSE (R334): a port that the record holds as down has been ACTIVE for 1 s. -/
def execPortUpPropose (port : Nat) (s : State) : Host.Outcome State Fault Refusal :=
  .next (if s.portActive port ∧ s.fabric.linkUp s.fabric.selfIdent port = false then
    s.propose s.fabric.ident 2 (port + 16 * s.fabric.selfIdent)
  else s)

/-! ## The link (R327-R329) -/

/-- A flit as it stands in 640 bytes (Table 13.4). -/
def flitOf (m : Mem) : Flit :=
  { kind := m.getLe 0 1, vc := m.getLe 1 1 % 4, dst := m.getLe 4 2, src := m.getLe 6 2, epoch := m.getLe 8 4
    msgSeq := m.getLe 0xC 4, address := m.getLe 0x10 8
    payload := { len := Nat.min 608 (m.getLe 0x18 2)
                 bytes := m.slice 0x1C (Nat.min 608 (m.getLe 0x18 2)) 0 }
    last := bitOf (m.getLe 0x1A 2) 0, signal := bitOf (m.getLe 0x1A 2) 1 }

/-- True when the CRC of a flit matches. -/
def flitOk (m : Mem) : Bool := m.getLe 0x27C 4 == crc32c (m.getBytes 0 0x27C)

/-- The 640 bytes of a codeword's flit (Table 13.4). -/
def Codeword.bytes (w : Codeword) : Mem :=
  let x := w.flit
  let credits := w.credits.zipIdx.foldl (fun n e => n + e.1 % 16 * 16 ^ e.2) 0
  let m := Mem.putBytes [] 0 (leBytes 1 x.kind ++ leBytes 1 x.vc ++ leBytes 2 credits ++ leBytes 2 x.dst ++
    leBytes 2 x.src ++ leBytes 4 x.epoch ++ leBytes 4 x.msgSeq ++ leBytes 8 x.address ++ leBytes 2 x.payload.len ++
    leBytes 2 (b2n x.last + 2 * b2n x.signal) ++ x.payload.bytes.getBytes 0 x.payload.len)
  m.putBytes 0x27C (leBytes 4 (crc32c (m.getBytes 0 0x27C)))

/-- The link control word of a codeword (Table 13.3). -/
def Codeword.control (w : Codeword) : BitVec 20 :=
  BitVec.ofNat 20 (w.seq % 512 + 512 * (w.ack % 512) + 2 ^ 18 * b2n w.nak + 2 ^ 19 * b2n w.idle)

/-- The oldest unacknowledged flits sent again (R327), with the credits that they carry; the eighth replay of one flit
retrains the port. -/
def State.replay (s : State) (port : Nat) : State :=
  let p := s.port port
  if p.replayBuf.isEmpty ∨ p.st ≠ 5 then s
  else (s.modPort port fun q => { q with
      replays := q.replays + 1, replayRun := q.replayRun + 1, sendNak := false, ackDue := false
      flitsTx := q.flitsTx + BitVec.ofNat 64 q.replayBuf.length
      st := if 8 ≤ q.replayRun + 1 then 6 else 5 }).modFabric fun f => { f with
    sent := (p.replayBuf.map fun w => p.codeword port w.seq false w.credits w.flit).reverse ++ f.sent }

/-- Flits that the far end has acknowledged leave the replay buffer (Table 13.3). -/
def Port.acknowledge (p : Port) (ack : Nat) : Port :=
  match p.replayBuf.head? with
  | none => p
  | some x =>
    let n := (ack + 513 - x.seq) % 512
    if n = 0 ∨ p.replayBuf.length < n then p
    else { p with replayBuf := p.replayBuf.drop n, replayRun := 0 }

/-- The credits that 640 bytes carry taken up (R328, R329). -/
def Port.credited (p : Port) (flit : Mem) : Port :=
  { p with credits := (List.range 4).map fun v =>
      capNat 64 (p.credits.getD v 0 + bitsOf (flit.getLe 2 2) (4 * v + 3) (4 * v)) }

/-- A flit accepted on port `port` (R327-R329): one of an invalid type is discarded; one for this module, or from link to
link, frees its receive slot at once; one for another module holds it until it is sent on. -/
def State.acceptFlit (s : State) (port : Nat) (x : Flit) : State :=
  let s1 := s.modPort port fun q => { q with
    expectSeq := (q.expectSeq + 1) % 512, sendNak := false, ackDue := true, flitsRx := q.flitsRx + 1 }
  let known := decide (1 ≤ x.kind ∧ x.kind ≤ 5)
  let here := x.kind == 3 || x.kind == 4 || s.fabric.mine x.dst
  let s2 := s1.modPort port fun q =>
    if known && !here then { q with received := q.received ++ [x] } else { q with freed := listMod q.freed x.vc (· + 1) }
  if known && here then s2.modFabric fun f => { f with arrived := f.arrived ++ [x] } else s2

/-- FLIT_RECEIVE (R327-R329): accepted only in link sequence order, with a good codeword and CRC, and into a free receive
slot; on any failure the next control word sent carries nak. An idle flit carries credits only (DESIGN CHOICE,
notes/assumptions/51.md). -/
def execFlitReceive (port : Nat) (control : BitVec 20) (good : Bool) (flit : Mem) (s : State) :
    Host.Outcome State Fault Refusal :=
  let w := control.toNat
  .next (if ((s.port port).st ≠ 5 ∧ (s.port port).st ≠ 4) ∨ s.linkLogic = false then s
  else if good = false then
    (s.modPort port fun q => { q with uncorr := q.uncorr + 1, sendNak := true }).pump port
  else
    let s1 := s.modPort port fun q => q.acknowledge (bitsOf w 17 9)
    let s2 := if bitOf w 18 then s1.replay port else s1
    let x := flitOf flit
    if bitOf w 19 then
      (if flitOk flit then s2.modPort port fun q => q.credited flit
        else s2.modPort port fun q => { q with sendNak := true }).pump port
    else if flitOk flit = false ∨ bitsOf w 8 0 ≠ (s.port port).expectSeq ∨
        64 ≤ ((s.port port).received.filter fun y => y.vc == x.vc).length then
      (s2.modPort port fun q => { q with sendNak := true }).pump port
    else (((s2.modPort port fun q => q.credited flit).acceptFlit port x).forwardHeld).pump port)

/-- REPLAY_TIMEOUT (R327): ack has not advanced for 1 µs. -/
def execReplayTimeout (port : Nat) (s : State) : Host.Outcome State Fault Refusal :=
  .next (if s.linkLogic then s.replay port else s)

/-! ## Delivery (R336-R343) -/

/-- DATA (R336, R342, R343): a message is delivered whole once all of its flits have arrived and its sequence is the one
expected; a duplicate and an early one are discarded. An ACK goes out in each case, for a write that must wait once it has
taken effect. -/
def execData (src seq addr : Nat) (payload : Buf) (kind : MsgKind) (s : State) :
    Host.Outcome State Fault Refusal :=
  let m : Msg := { dst := s.fabric.ident, seq := seq, addr := addr, payload := payload, kind := kind }
  .next (if s.linkLogic = false ∨ s.whole src m = false then s
  else
    let want := tget 0 s.fabric.expectSeq src
    let s1 := s.consumeMsg src seq
    if seq ≠ want then
      (if seqLe seq want then s1.modFabric fun f => { f with dupDrop := f.dupDrop + 1 } else s1).sendAck src false
    else if s.fabric.heldWrites.any fun h => h.src == src && h.seq == seq then s1
    else (s1.deliver src seq addr payload kind).settle)

/-- What the acknowledgement of message `m` ends (R340, R344, R356). -/
def State.acked (s : State) (denied : Bool) (m : Msg) : State :=
  match m.kind with
  | .write | .signal =>
    match m.op with
    | none => s
    | some op =>
      if denied then s.finish op .accessDenied
      else if s.fabric.store.any fun x => x.op == some op then s else s.finish op .success
  | .tile cut => if denied ∧ s.ckpt.buddy.any (fun b => b.cut == cut) ∧ m.dst = s.fabric.partner then
      s.abandonStream true 0x02 else s
  | .commit cut => if m.dst = s.fabric.partner then s.buddyCommit cut else s
  | .manifest _ _ | .imageAsk => s
  | .bind _ =>
    match m.op with
    | none => s
    | some op =>
      let mine := fun w : Window => !w.accept && w.coord == m.dst && w.remote == m.addr && w.fn == m.fn &&
        !w.confirmed
      if denied then
        (s.modTs fun t => { t with windows := t.windows.filter fun w => !mine w }).finish op .accessDenied
      else (s.modTs fun t => { t with
        windows := t.windows.map fun w => if mine w then { w with confirmed := true } else w }).finish op
          .success

/-- ACK (R337): every message to `src` at or below `cum` leaves the retransmit store, and the interval
returns to 20 µs. `denied` concerns the message `cum` itself. -/
def execAck (src cum : Nat) (imageLost denied : Bool) (s : State) : Host.Outcome State Fault Refusal :=
  let gone := s.fabric.store.filter fun m => m.dst == src && seqLe m.seq cum
  let s1 := (s.consume fun x => x.kind == 2 && x.src == src).modFabric fun f => { f with
    store := f.store.filter fun m => !(m.dst == src && seqLe m.seq cum)
    interval := tdel f.interval src
    unavailable := f.unavailable.filter fun c => c != src }
  let s2 := gone.foldl (fun t m => t.acked (denied && m.seq == cum) m) s1
  let s3 := if imageLost ∧ src = s.fabric.partner then s2.partnerLost else s2
  .next (if s.linkLogic = false then s else s3.stream.settle)

/-- RESYNC (R338, R389): the expected sequence with `src` is set. One that names 0 follows a cold reset:
both sequences return to 0, messages to the sender are abandoned and bindings to it dropped. -/
def execResync (src next : Nat) (s : State) : Host.Outcome State Fault Refusal :=
  .next (if s.linkLogic = false then s
  else
    let s1 := s.consume fun x => x.kind == 5 && x.src == src
    if next ≠ 0 then s1.modFabric fun f => { f with expectSeq := tset f.expectSeq src next }
    else
      let s2 := s1.abandonMsgs (fun m => m.dst == src) (.vendor 0xC6)
      ((s2.modFabric fun f => { f with
        expectSeq := tdel f.expectSeq src, sendSeq := tdel f.sendSeq src }).modTs fun t => { t with
          windows := t.windows.filter fun w => w.accept || w.coord != src }).settle)

/-- RETRANSMIT_TIMEOUT (R337): every unacknowledged message to `dst` is sent again, in order, and the
interval doubles up to 1 ms. -/
def execRetransmitTimeout (dst : Nat) (s : State) : Host.Outcome State Fault Refusal :=
  let ms := s.fabric.store.filter fun m => m.dst == dst
  .next (if ms.isEmpty then s
  else
    let s1 := s.modFabric fun f => { f with
      e2eRetx := f.e2eRetx + BitVec.ofNat 64 ms.length
      interval := tset f.interval dst (Nat.min 1000 (2 * tget 20 f.interval dst)) }
    (ms.foldl State.transmit s1).observe 0x0D 0 (ms.length : Nat))

/-! ## Routes that stay unavailable (R345) -/

/-- True when no route to coordinates `c` is available. -/
def State.routeless (s : State) (c : Nat) : Bool :=
  let r := s.fabric.route c
  !(r.primaryValid || r.isLocal) || s.fabric.store.any fun m => m.dst == c

/-- Programs that R345 ends when the route to `c` stays unavailable: those with an unacknowledged forwarded
write to it, and those of which a bench waits on its route queue with a window accepted from it. -/
def State.routeVictims (s : State) (c : Nat) : List Nat :=
  let writers := (s.fabric.store.filter fun m => m.dst == c && (m.kind == .write || m.kind == .signal)).filterMap (·.prog)
  let waiters := (s.ts.windows.filter fun w => w.accept && w.coord == c).filterMap fun w =>
    let k := progKey w.fn w.index
    if (s.benchesOf k).any fun b => (s.bench b).seq.st == .waiting && (s.bench b).seq.waitCause.contains waitRoute
    then some k else none
  ((writers ++ waiters).eraseDups).filter fun k => (s.prog k).running.isSome

/-- ROUTE_TIMEOUT (R345): the route to `coord` has stayed unavailable for route_timeout. -/
def execRouteTimeout (coord : Nat) (s : State) : Host.Outcome State Fault Refusal :=
  .next (if s.routeless coord = false then s
  else
    let hit := s.host.ops.filterMap fun o =>
      match o.kind with
      | .peerCopy _ _ _ d _ => if d = coord then some o.id else none
      | .peerBind _ _ d => if d = coord then some o.id else none
      | _ => none
    let s1 := s.modFabric fun f => { f with
      unavailable := if f.unavailable.contains coord then f.unavailable else f.unavailable ++ [coord]
      store := f.store.map fun m => if m.op.any hit.contains then { m with op := none } else m }
    let s2 := s1.modTs fun t => { t with
      windows := t.windows.filter fun w => w.accept || w.confirmed || w.coord != coord }
    let s3 := hit.foldl (fun t i => t.finish i (.vendor 0xC6)) s2
    let s4 := (s.routeVictims coord).foldl (fun t k => t.endExecution k (.vendor 0xC6) 0 none) s3
    (if coord = s.fabric.partner then s4.abandonStream true 0x01 else s4).settle)

end Sys2Proof.Machine
end

