-- ==== Sys2Proof/Machine/FlashBg.lean ====
section
/-! DEFINITION. The flash translation layer's own work: read escalation and refresh, garbage collection,
folding, parity, the patrol, retirements, mount, and the direct media commands (R260-R289, R310-R312). -/

namespace Sys2Proof.Machine

/-! ## Reads and refresh (R277-R281) -/

/-- Map entries (key and page) that name a page of block `b` and have no relocation under way. -/
def State.movable (s : State) (b : Nat) : List (Nat × Nat) :=
  let busy := fun (k : Nat) => (s.flash.relocs.any fun r => r.key == k) || s.flash.queued.any fun g => g.2.any fun r =>
    match r with
    | .relocate key _ _ => key == k
    | .fold key _ _ => key == k
    | _ => false
  ((s.validIn b).filter fun e => !busy e.1).map fun e => (e.1, e.2 - 1)

/-- IU `key`, whose contents are `data`, copied from page `old` to a pool block as QLC; its copy awaits read-back
(R274). -/
def State.startCopy (s : State) (key old : Nat) (data : Mem) : State :=
  match s.copyQlc data with
  | none => s
  | some (t, new, _) => t.modFlash fun f => { f with
      relocs := f.relocs ++ [{ key := key, old := old, new := new }] }

/-- IU `key` at page `old` read and copied. A page on a wordline that is not settled is no source (R260). -/
def State.startReloc (s : State) (key old : Nat) : State :=
  if s.pageSettled old then (s.countRead old).startCopy key old (tget [] s.flash.media old) else s

/-- Every valid IU of a block begins to move to another (R277: a refresh). -/
def State.relocateBlock (s : State) (b : Nat) : State :=
  (s.movable b).foldl (fun t e => t.startReloc e.1 e.2) (s.modBlk b fun x => { x with refresh := true })

/-- The contents of a page rebuilt from the other members of its stripe (R267): their exclusive or; before its parity is
programmed, what the buffers held for it still hold (R266). -/
def State.rebuilt (s : State) (ppa : Nat) : Mem :=
  match s.flash.stripes.find? fun x => x.members.contains ppa && decide (0 < x.parity) with
  | none => tget [] s.flash.media ppa
  | some x => (x.members.filter fun p => p != ppa).foldl (fun m p => xorMem m (tget [] s.flash.media p))
      (tget [] s.flash.media (x.parity - 1))

/-- The reads that rebuilding a page makes of the other members of its stripe (R280). -/
def State.countRebuild (s : State) (ppa : Nat) : State :=
  match s.flash.stripes.find? fun x => x.members.contains ppa && decide (0 < x.parity) with
  | none => s
  | some x => ((x.members.filter fun p => p != ppa && !s.pageGone p) ++ [x.parity - 1]).foldl State.countRead s

/-- What a page read does that succeeds at `step` of Table 11.4 (5: not at all), which corrects `bits` bits; at step 5
`bits` is the mask of the codewords that failed. A read that has been counted is not counted again. -/
def State.pageRead (s : State) (ppa step bits : Nat) : State :=
  let b := pageBlock ppa
  let s0 := if s.flash.reading.contains ppa then s.modFlash fun f => { f with reading := f.reading.erase ppa }
    else s.countRead ppa
  let s1 := s0.modStack (s.pageStack ppa) fun z => { z with
    corrected := if step < 5 then z.corrected + BitVec.ofNat 64 bits else z.corrected
    escalated := if 2 ≤ step then z.escalated + 1 else z.escalated }
  if 5 ≤ step then s1.losePage ppa bits
  else if step = 4 then
    match s1.keyAt ppa with
    | some k => ((s1.countRebuild ppa).startCopy k ppa (s1.rebuilt ppa)).relocateBlock b
    | none => s1.relocateBlock b
  else if 2 ≤ step ∨ 96 < bits then s1.relocateBlock b
  else s1

/-- True when a block is due for refresh by its read count (R280). -/
def Blk.readDue (b : Blk) : Bool := decide ((if b.qlc then 50000 else 500000) ≤ b.reads)

/-- FLASH_READ_COMPLETE (R277). -/
def execFlashReadComplete (ppa step correctedBits : Nat) (s : State) : Host.Outcome State Fault Refusal :=
  .next (s.pageRead ppa step correctedBits)

/-- READ_COUNT_REFRESH (R280). -/
def execReadCountRefresh (block : Nat) (s : State) : Host.Outcome State Fault Refusal :=
  .next (if (s.blk block).readDue ∨ (s.blk block).refresh = true then s.relocateBlock block else s)

/-- Pages that the patrol reads (R281): those that hold valid data, map and journal, or checkpoint data. -/
def State.patrolPages (s : State) : List Nat :=
  let valid := (s.flash.map.filter fun e => decide (0 < e.2) && s.liveKey e.1).map fun e => e.2 - 1
  (valid ++ (s.flash.journal.flatMap fun d => d.pages) ++ s.flash.ckptPages).eraseDups

/-- The patrol period in ticks (R281). -/
def State.patrolTicks (s : State) : Nat := s.host.patrolDays * 86400000 * ticksPerMs

/-- When the pass began, moved on by the time that it has waited in PS3 and PS4 (R318). -/
def State.patrolBegan (s : State) : Nat := s.flash.patrolStart + s.host.patrolLost

/-- True when the next read of the pass is due: the reads are spread evenly over the period, and a full pass of R282 waits
for nothing. -/
def State.patrolDue (s : State) : Bool :=
  s.flash.patrolFull || (decide (s.patrolBegan ≤ s.now) &&
    decide (s.flash.patrolRead.length * s.patrolTicks ≤ (s.now - s.patrolBegan) * s.patrolPages.length))

/-- PATROL_READ (R281): a page that is due in this pass is read and acted on. The pass ends with the last such page
(event 0x09), and the next one begins a period after it began. -/
def execPatrolRead (ppa step correctedBits : Nat) (s : State) : Host.Outcome State Fault Refusal :=
  .next (if s.flash.mounted = false ∨ s.backgroundWaits = true ∨ s.patrolPages.contains ppa = false ∨
      s.flash.patrolRead.contains ppa = true ∨ s.patrolDue = false then s
  else
    let s1 := s.pageRead ppa step correctedBits
    let seen := ppa :: s1.flash.patrolRead
    if s1.patrolPages.all fun p => seen.contains p then
      ((s1.modFlash fun f => { f with
        patrolRead := [], patrolFull := false
        patrolStart := if f.patrolFull then s.now else s.patrolBegan + s.patrolTicks }).modHost fun h => { h with
          patrolLost := 0 }).flashEvent 0x09 0xFF 0xFF
    else s1.modFlash fun f => { f with patrolRead := seen })

/-! ## Erase, folding and garbage collection (R265, R272-R275) -/

/-- True when no pin requires block `b` any more (R272). -/
def State.unpinned (s : State) (b : Nat) : Bool := s.flash.pins.all fun p => decide ((s.blk b).freedAt ≤ p.seq)

/-- True when block `b` is open for programming. -/
def State.isOpen (s : State) (b : Nat) : Bool :=
  (s.openOn (s.blockStack b) false).contains b || (s.openOn (s.blockStack b) true).contains b

/-- True when a record that concerns block `b` waits in the journal's queue. -/
def State.recordQueued (s : State) (b : Nat) : Bool :=
  s.flash.queued.any fun g => g.2.any fun r =>
    match r with
    | .eraseIntent x => x == b
    | .eraseDone x _ _ => x == b
    | .retire 0 x => x == b
    | _ => false

/-- True when a page of block `b` is programmed for a record that is not yet durable: an IU of a write part, a relocated or
a folded copy (R274). -/
def State.inFlight (s : State) (b : Nat) : Bool :=
  (s.flash.parts.any fun p => decide (1 ≤ p.stage) && decide (p.stage ≤ 3) &&
    p.ius.any fun x => decide (0 < x.2.2) && pageBlock (x.2.2 - 1) == b) ||
  (s.flash.programmed.any fun e => pageBlock e.ppa == b) ||
  (s.flash.relocs.any fun r => pageBlock r.new == b) ||
  s.flash.queued.any fun g => g.2.any fun r =>
    match r with
    | .relocate _ _ new => pageBlock new == b
    | .fold _ _ new => pageBlock new == b
    | _ => false

/-- True when block `b` holds the parity page of a stripe. -/
def State.holdsParity (s : State) (b : Nat) : Bool :=
  s.flash.stripes.any fun x => decide (0 < x.parity) && pageBlock (x.parity - 1) == b

/-- Pool blocks that garbage collection may take: in use, not open, no erase or retirement under way, and needed neither
for a record that is not yet durable nor for parity. -/
def State.victims (s : State) : List (Nat × Blk) :=
  s.flash.blocks.filter fun e => e.2.st == 0 && s.roleOf e.1 == 0 && !e.2.erasing && !s.isOpen e.1 &&
    !s.recordQueued e.1 && !s.inFlight e.1 && !s.holdsParity e.1

/-- The block with the fewest valid IUs, of lowest wear among those (R275). -/
def State.fewestValid (s : State) (l : List (Nat × Blk)) : Option Nat :=
  (l.foldl (fun (m : Option (Nat × Nat × Nat)) e =>
    let n := (s.validIn e.1).length
    match m with
    | none => some (e.1, n, e.2.wear)
    | some (b, k, w) => if n < k ∨ (n = k ∧ e.2.wear < w) then some (e.1, n, e.2.wear) else some (b, k, w))
    none).map (·.1)

/-- Blocks that wear levelling empties (R258): their wear lies more than 0.05 below the pool mean. -/
def State.coldBlocks (s : State) : List (Nat × Blk) :=
  s.victims.filter fun e => decide (e.2.wear + 7500 < s.wearMean)

/-- The block that garbage collection works on: below 4 % free blocks the victim of R275, otherwise a block due for
refresh, and then one whose cold data wear levelling moves (R258, R277). -/
def State.victim (s : State) : Option Nat :=
  if s.flash.freePct < 4 then s.fewestValid s.victims
  else
    match s.victims.find? fun e => e.2.refresh with
    | some e => some e.1
    | none => leastWorn s.coldBlocks

/-- True when folding and garbage collection may go on: at read-only end of life only while the write cache holds
blocks (R286). -/
def State.mayReclaim (s : State) : Bool :=
  s.flash.mounted && !s.backgroundWaits && (!s.flash.readOnly || s.cacheBlocks != 0)

/-- A block without valid data on its way to be free: erased, or retired after its third strike (R263,
R274). -/
def State.reclaim (s : State) (b : Nat) : State :=
  if 3 ≤ (s.blk b).strikes then s.queueRecs none [.retire 0 b] else s.queueRecs none [.eraseIntent b]

/-- GARBAGE_COLLECTION (R258, R274, R275, R277): below 4 % free blocks, with a refresh due or with cold data to move, the
valid IUs of the block taken are copied, or a block without any that no pin requires is reclaimed. -/
def execGarbageCollection (s : State) : Host.Outcome State Fault Refusal :=
  .next (if s.mayReclaim = false then s
  else
    match s.victim with
    | none => s
    | some b =>
      if (s.validIn b).isEmpty then (if s.unpinned b then s.reclaim b else s) else s.relocateBlock b)

/-- GC_RELOCATE (R274): the oldest relocated copy has settled and been read back, with at most `worst` bits corrected in a
codeword (R261). A failed read-back strikes its block and the IU is copied again. -/
def execGcRelocate (worst : Option Nat) (s : State) : Host.Outcome State Fault Refusal :=
  .next (match s.flash.relocs with
  | [] => s
  | r :: rest =>
    let s1 := ((s.modFlash fun f => { f with relocs := rest }).settlePage 4 r.new).countRead r.new
    if readBackOk worst then s1.queueRecs none [.relocate r.key r.old r.new]
    else (s1.strike (pageBlock r.new)).startReloc r.key r.old)

/-- FLASH_ERASE_COMPLETE (R274): ERASE_DONE with the block's erase counts goes to the journal. -/
def execFlashEraseComplete (block : Nat) (s : State) : Host.Outcome State Fault Refusal :=
  let b := s.blk block
  .next (if b.erasing = false ∨ s.recordQueued block = true then s
  else s.queueRecs none [.eraseDone block (b.pslcErases + b2n (!b.qlc)) (b.qlcErases + b2n b.qlc)])

/-- True while a host write waits for room in the write cache (R265). -/
def State.cacheWanted (s : State) : Bool := !s.waitingIus.isEmpty && decide (s.cacheLimit < s.cacheBlocks + 4)

/-- True when the write cache folds (R265): it is half full, and no host write waits for room in it or it is above 90 %;
at read-only end of life until it is empty (R286). -/
def State.folds (s : State) : Bool :=
  s.flash.readOnly || (decide (s.cacheLimit ≤ 2 * s.cacheBlocks) &&
    (!s.cacheWanted || decide (9 * s.cacheLimit < 10 * s.cacheBlocks)))

/-- The copies of a fold settled and read back (R260, R261, R265): a FOLD record for each one that passes; the block of
one that fails is struck and its IU stays in pSLC. -/
def State.foldCopies : List (Nat × Nat × Nat) → State → State
  | [], s => s
  | (key, old, new) :: r, s =>
    let x := ((s.settlePage 4 new).countRead new).drawReadBack
    State.foldCopies r (if x.2 then x.1.queueRecs none [.fold key old new] else x.1.strike (pageBlock new))

/-- FOLD (R265): every valid IU of a pSLC block copied to QLC; once each copy has settled and passed read-back its FOLD
record goes to the journal. -/
def execFold (block : Nat) (s : State) : Host.Outcome State Fault Refusal :=
  let b := s.blk block
  .next (if b.st ≠ 0 ∨ b.qlc = true ∨ s.roleOf block ≠ 0 ∨ s.isOpen block = true ∨ s.mayReclaim = false ∨
      s.folds = false then s
  else
    let x := (s.movable block).foldl (fun (x : State × List (Nat × Nat × Nat)) e =>
      match (x.1.countRead e.2).copyQlc (tget [] x.1.flash.media e.2) with
      | none => x
      | some (u, new, _) => (u, x.2 ++ [(e.1, e.2, new)])) (s, [])
    State.foldCopies x.2 x.1)

/-- WRITE_THROTTLE (R275): below 2 % free blocks host writes are throttled; event 0x07. -/
def execWriteThrottle (s : State) : Host.Outcome State Fault Refusal :=
  .next (if s.flash.freePct < 2 ∧ s.flash.throttling = false ∧ s.flash.mounted = true then
    (s.modFlash fun f => { f with throttling := true, credit := 0 }).flashEvent 0x07 0xFF 0xFF
  else s)

/-! ## Parity and retirement (R266-R268) -/

/-- STRIPE_PARITY_PROGRAMMED (R266, R267): the parity page, the exclusive or of the data pages, is programmed
on the stripe's parity stack and read back, and the buffers held for it are freed. A failed read-back strikes its block,
and the page is programmed again (R261). -/
def execStripeParityProgrammed (stripe : Nat) (s : State) : Host.Outcome State Fault Refusal :=
  .next (match s.flash.stripes.find? fun x => x.id == stripe && x.parity == 0 && !x.members.isEmpty with
  | none => s
  | some x =>
    match s.takeUnit x.parityStack with
    | none => s
    | some (s1, ps) =>
      let ppa := ps.headD 0
      let r := (s1.countRead ppa).drawReadBack
      if r.2 then
        ((r.1.putPage ppa (x.members.foldl (fun m p => xorMem m (tget [] s.flash.media p)) [])).modFlash fun f =>
          { f with stripes := f.stripes.map fun z =>
              if z.id = stripe then { z with parity := ppa + 1, closed := true } else z }).freeBuffers
      else r.1.strike (pageBlock ppa))

/-- DIE_RETIRE (R268): a die that fails its self-test or stops answering leaves service. -/
def execDieRetire (stack die : Nat) (s : State) : Host.Outcome State Fault Refusal :=
  .next (s.retireDie stack die)

/-- A seam stack retired (R268): a rebuild starts, event 0x04. -/
def State.stackOut (s : State) (stack cause : Nat) : State :=
  if (s.stack stack).st = 2 ∨ ((List.range s.diesPerStack).any fun d => s.dieServes stack d) = false then s
  else
    let s1 := s.modStack stack fun z => { z with
      dieRetired := List.range s.diesPerStack, rebuilding := true, st := 1 }
    let s2 := s1.queueRecs none [.retire 2 stack]
    ((s2.repair 0x10 cause stack 0).flashEvent 0x04 stack 0xFF).afterRetire

/-- STACK_RETIRE (R268). -/
def execStackRetire (stack : Nat) (s : State) : Host.Outcome State Fault Refusal :=
  .next (s.stackOut stack 0x01)

/-- True when every die of a stack is out of service. -/
def State.stackGone (s : State) (k : Nat) : Bool :=
  (List.range s.diesPerStack).all fun d => (s.stack k).dieRetired.contains d

/-- Pages of valid data on the retired parts of stack `k`, with their IUs. -/
def State.toRebuild (s : State) (k : Nat) : List (Nat × Nat) :=
  (s.flash.map.filter fun e => decide (0 < e.2) && s.liveKey e.1 && s.pageStack (e.2 - 1) == k &&
    s.pageGone (e.2 - 1)).map fun e => (e.1, e.2 - 1)

/-- Pages rebuilt into pool blocks of the remaining dies (R268): each copy settles before its record is durable (R260). -/
def State.rebuildPages : List (Nat × Nat) → State → State
  | [], s => s
  | (key, old) :: r, s =>
    match (s.countRebuild old).copyQlc (s.rebuilt old) with
    | none => State.rebuildPages r s
    | some (u, new, _) =>
      State.rebuildPages r (((u.settlePage 4 new).countRead new).commitGroup [.relocate key old new])

/-- REBUILD_COMPLETE (R268): every valid page of the retired part lies in pool blocks of the remaining dies; event 0x05
when the part is a stack. The rebuild goes on while a page finds no room. -/
def execRebuildComplete (stack : Nat) (s : State) : Host.Outcome State Fault Refusal :=
  .next (if (s.stack stack).rebuilding = false then s
  else
    let moved := State.rebuildPages (s.toRebuild stack) s
    if (moved.toRebuild stack).isEmpty = false then moved
    else
      let t := moved.modStack stack fun z => { z with
        rebuilding := false, st := if moved.stackGone stack then 2 else 0 }
      if moved.stackGone stack then t.flashEvent 0x05 stack 0xFF else t)

/-- READ_ONLY_END_OF_LIFE (R286). -/
def execReadOnlyEndOfLife (s : State) : Host.Outcome State Fault Refusal :=
  .next (if s.blocksLost < s.spareAtManufacture ∧ s.journalStack.isSome = true then s else s.endOfLife)

/-! ## Mount (R276, R282) -/

/-- The map that a durable record leaves (Table 11.3). -/
def replayRec (m : Table Nat) (r : JRec) : Table Nat :=
  match r with
  | .write nsid _ _ ius => ius.foldl (fun t e => tset t (iuKey nsid e.1) (e.2 + 1)) m
  | .dealloc nsid first count =>
    m.filter fun e => decide (e.1 < iuKey nsid first) || decide (iuKey nsid (first + count) ≤ e.1)
  | .relocate key old new => if tget 0 m key = old + 1 then tset m key (new + 1) else m
  | .fold key old new => if tget 0 m key = old + 1 then tset m key (new + 1) else m
  | _ => m

/-- The durable records that mount can replay after sequence number `n` (R276): in sequence order, until neither copy of
one can be read or the sequence skips. -/
def State.replayable (s : State) : Nat → List Durable → List Durable
  | _, [] => []
  | n, d :: r =>
    if d.seq = n + 1 ∧ (d.pages.isEmpty || d.pages.any fun p => !s.pageGone p) then d :: s.replayable d.seq r else []

/-- The map that mount rebuilds: the latest checkpoint, then the records after it in sequence order. -/
def State.replayMap (s : State) : Table Nat :=
  ((s.replayable s.flash.ckptSeq s.flash.journal.reverse).map (·.record)).foldl replayRec s.flash.ckptMap

/-- The 1 % of the QLC blocks that were written earliest, one at least (R282). -/
def State.sampleBlocks (s : State) : List Nat :=
  let l := sortBy (fun a b => decide (a.2.written ≤ b.2.written))
    (s.flash.blocks.filter fun e => e.2.st == 0 && e.2.qlc && s.roleOf e.1 == 0)
  (l.take (ceilDiv l.length 100)).map (·.1)

/-- One page of each sampled block read (R282): those that `sample` lists (page, step, bits) as it says, another with the
first step. -/
def State.mountSample (s : State) (sample : List (Nat × Nat × Nat)) : State :=
  s.sampleBlocks.foldl (fun t b =>
    match sample.find? fun e => pageBlock e.1 == b with
    | some e => t.pageRead e.1 e.2.1 e.2.2
    | none => t.countRead (1024 * b)) s

/-- MOUNT (R276, R282): after a cold or module reset, once the boot chain has handed over and no reset runs. Open blocks
are closed, and what their unsettled wordlines hold is discarded. A sample read that needs step 2 or a later one starts a
full patrol pass. -/
def execMount (sample : List (Nat × Nat × Nat)) (s : State) : Host.Outcome State Fault Refusal :=
  .next (if s.flash.mounted = true ∨ s.sec.booted = false ∨ s.power.on = false ∨ s.power.shutdown = true ∨
      s.resets.any (fun r => decide (3 ≤ r.scope)) = true then s
  else
    let lost := fun p => !s.pageSettled p && s.roleOf (pageBlock p) != 3
    let s1 := (s.leaveStripes lost).modFlash fun f => { f with
      map := s.replayMap, openPslc := [], openQlc := [], fillQlc := [], programmed := [], pins := [], pinWait := []
      pinDelta := [], mounted := true, patrolRead := [], patrolStart := s.now
      media := f.media.filter fun e => !lost e.1
      stripes := f.stripes.map fun x => { x with closed := true } }
    let undone := (s1.flash.blocks.filter fun e => e.2.erasing).map fun e =>
      JRec.eraseDone e.1 (e.2.pslcErases + b2n (!e.2.qlc)) (e.2.qlcErases + b2n e.2.qlc)
    let s2 := (undone.foldl (fun t r => t.commitGroup [r]) s1).recount.mountSample sample
    let full := sample.any fun e => s1.sampleBlocks.contains (pageBlock e.1) && decide (2 ≤ e.2.1)
    let s3 := s2.modFlash fun f => { f with patrolFull := full }
    if full then s3.flashEvent 0x0A 0xFF 0xFF else s3)

/-! ## Direct media (R288, R310-R312) -/

/-- Blocks of role 3. -/
def State.directBlocks (s : State) : List Nat :=
  (s.flash.blocks.filter fun e => e.2.role == 3).map (·.1)

/-- A block erased outside the journal: its erase count in the mode last programmed rises. -/
def State.eraseDirect (s : State) (b role st : Nat) : State :=
  let s1 := s.modBlk b fun x => { x with
    pslcErases := x.pslcErases + b2n (!x.qlc), qlcErases := x.qlcErases + b2n x.qlc, qlc := false
    nextPage := 0, reads := 0, refresh := false, role := role, st := st }
  (s1.modFlash fun f => { f with media := f.media.filter fun e => pageBlock e.1 != b }).modStack
    (s.blockStack b) fun z => { z with erases := z.erases + 1 }

/-- Every role-3 block erased and back in the pool (R312). -/
def State.releaseDirect (s : State) : State :=
  (s.directBlocks.foldl (fun t b => t.eraseDirect b 0 1) s).recount

/-- The blocks that a reserve takes: one per plane of every die in service. -/
def State.reserveBlocks (s : State) : List Nat :=
  (List.range 32).flatMap fun k => ((List.range s.diesPerStack).filter fun d => s.dieServes k d).flatMap
    fun d => (List.range 4).filterMap fun p => s.planeFree k d p

/-- Direct media commands: PFs only; outside BLANK, PROVISIONED and DEBUG they end with Invalid Command
Opcode (R311, R312). -/
def directCmd (c : Src) (f : State → State) (s : State) : State :=
  pfCmd c .direct (fun t => if t.lifeCycle = .deployed then t.done c .invalidOpcode else f t) s

/-- DIRECT_MEDIA_RESERVE (R312). -/
def execDirectMediaReserve (c : Src) (dw10 : Word) (s : State) : Host.Outcome State Fault Refusal :=
  .next (directCmd c (fun t =>
    if fld dw10 31 1 ≠ 0 then t.done c .invalidField
    else if bitOf dw10.toNat 0 then
      let n := 4 * t.diesInService
      if t.directBlocks.isEmpty = false then t.done c .commandSequenceError
      else if 100 * (t.poolFree - n) < 4 * (t.poolBlocks - n) then t.done c .capacityExceeded
      else
        let bs := t.reserveBlocks
        (bs.foldl (fun u b => u.eraseDirect b 3 0) t).recount.doneDw c .success (BitVec.ofNat 32 bs.length) 0
    else t.releaseDirect.doneDw c .success (BitVec.ofNat 32 t.directBlocks.length) 0) s)

/-- A Direct command on a block of role 3; Invalid Command Opcode on any other block (R311). -/
def directOn (c : Src) (dw10 : Word) (f : Nat → State → State) (s : State) : State :=
  directCmd c (fun t =>
    let b := fld dw10 22 0
    if fld dw10 31 23 ≠ 0 then t.done c .invalidField
    else if t.roleOf b ≠ 3 then t.done c .invalidOpcode
    else f b t) s

/-- DIRECT_PROGRAM (R288, R310, R311): a pSLC wordline of 16 KiB, or the next QLC wordline of 64 KiB, with the passes of
R260; the die reports `status`. A pSLC wordline is programmed once (R259): programmed again it holds free bytes
(DESIGN CHOICE, notes/assumptions/114.md). -/
def execDirectProgram (c : Src) (dw10 dw11 : Word) (data : Buf) (status : Word) (s : State) :
    Host.Outcome State Fault Refusal :=
  .next (directOn c dw10 (fun b t =>
    let w := fld dw11 7 0
    let qlc := bitOf dw11.toNat 16
    let x := t.blk b
    if fld dw11 15 8 ≠ 0 ∨ fld dw11 31 17 ≠ 0 ∨ data.len ≠ (if qlc then 65536 else 16384) ∨
        (qlc = true ∧ x.nextPage ≠ 4 * w) then t.done c .invalidField
    else
      let pages := if qlc then (List.range 4).map fun i => (4 * w + i, 16384 * i) else [(w, 0)]
      let again := !qlc && thas t.flash.media (1024 * b + w)
      let t1 := t.modFlash fun f => { f with
        directDraws := f.directDraws + b2n again
        media := pages.foldl (fun m e => tset m (1024 * b + e.1)
          (if again then Mem.putBytes [] 0 (freeBytes (drawOf 62 f.directDraws) (1024 * b + e.1) 16384)
          else Mem.copyIn [] 0 data.bytes e.2 16384)) f.media }
      let t2 := t1.modBlk b fun y => { y with
        qlc := qlc, nextPage := if qlc then 4 * w + 4 else Nat.max y.nextPage (w + 1) }
      (t2.modStack (t.blockStack b) fun z => { z with
        programs := z.programs + BitVec.ofNat 64 (if qlc then qlcPasses w else 1) }).doneDw
        c .success status 0) s)

/-- The bytes of a direct page: what was programmed there, free values where nothing was (R288). -/
def State.directBytes (s : State) (ppa : Nat) : List Byte :=
  if thas s.flash.media ppa then Mem.getBytes (tget [] s.flash.media ppa) 0 16384
  else freeBytes (drawOf 62 s.flash.directDraws) ppa 16384

/-- DIRECT_READ (R288, R310, R311). -/
def execDirectRead (c : Src) (dw10 dw11 dw12 : Word) (s : State) : Host.Outcome State Fault Refusal :=
  .next (directOn c dw10 (fun b t =>
    let w := fld dw11 7 0
    let qlc := bitOf dw11.toNat 16
    if fld dw11 15 10 ≠ 0 ∨ fld dw11 31 17 ≠ 0 ∨ fld dw12 31 1 ≠ 0 ∨ (qlc = false ∧ fld dw11 9 8 ≠ 0) then
      t.done c .invalidField
    else if qlc ∧ (t.blk b).settled w = false then t.done c .commandSequenceError
    else
      let ppa := 1024 * b + (if qlc then 4 * w + fld dw11 9 8 else w)
      let bytes := t.directBytes ppa
      let t1 := (t.countRead ppa).modFlash fun f => { f with directDraws := f.directDraws + 1 }
      t1.answer c (.data (Buf.ofBytes (if bitOf dw12.toNat 0 then Config.rawCodewords bytes else bytes)))) s)

/-- DIRECT_ERASE (R288, R310): the die reports `status`. -/
def execDirectErase (c : Src) (dw10 : Word) (status : Word) (s : State) :
    Host.Outcome State Fault Refusal :=
  .next (directOn c dw10 (fun b t => (t.eraseDirect b 3 0).doneDw c .success status 0) s)

end Sys2Proof.Machine
end

