-- ==== Sys2Proof/Machine/Resets.lean ====
section
/-! DEFINITION. Resets: the rest of a region and face die reset, module and cold resets with the tailings
wipe, and the end of a reset (R20-R27, R188, R189, R377, R382-R391, R411). -/

namespace Sys2Proof.Machine

/-! ## What a reset clears (Table 1.3, R411) -/

/-- An array after a reset of its region: only its retirement stands. -/
def Arr.wiped (a : Arr) : Arr := { retired := a.retired, retirePending := a.retirePending }

/-- A walker after a reset of its region. -/
def Walker.wiped (w : Walker) : Walker := { retired := w.retired, retirePending := w.retirePending }

/-- A bench after a reset of its region: its stores, memories, units and registers are zeroed or at their
reset values; retirements, remapped rows and the draw counter stand. -/
def Bench.wiped (b : Bench) : Bench :=
  { retired := b.retired, retirePending := b.retirePending, spareRows := b.spareRows, draws := b.draws
    arrays := b.arrays.map fun e => (e.1, e.2.wiped), walker := b.walker.wiped }

/-- A haul engine after a reset of its region. -/
def Haul.wiped (h : Haul) : Haul :=
  { retiredGroups := h.retiredGroups, pendingGroups := h.pendingGroups }

/-- A region after its reset: registers at their reset values, its haul engine and slice zeroed. -/
def Region.wiped (g : Region) : Region :=
  { st := g.st, retirePending := g.retirePending, spareRows := g.spareRows, uncorrRows := g.uncorrRows
    haul := g.haul.wiped }

/-- A face die's tier manager after a reset that empties its tensor space (R189): every slot FREE, a new
T3 key (R405). The hoist-die engine that serves the die is the hoist die's and stands (Table 1.3). -/
def Die.wiped (x : Die) (key : Nat) : Die :=
  { framesLost := x.framesLost, held := x.held, t3Key := key, hoist := x.hoist }

/-- The benches and regions of a scope wiped; errors that their words held are gone. -/
def State.wipeRegions (s : State) (scope idx : Nat) : State :=
  let bs := scopeBenches scope idx
  let s1 := bs.foldl (fun t b => t.modBench b Bench.wiped) s
  let s2 := (scopeRegions scope idx).foldl (fun t r => t.modRegion r Region.wiped) s1
  s2.modMgmt fun m => { m with
    planted := m.planted.filter fun e => !(e.1 != 2 && e.1 != 7 && bs.contains e.2.1) }

/-- True when a tensor-space address lies in face die `d`. -/
def inDie (d a : Nat) : Bool := addrDie a == d

/-- The tensor space of face die `d` emptied (R189), with the map segments that its control-core area holds (R270; which
these are is a DESIGN CHOICE, notes/assumptions/112.md). -/
def State.wipeDie (s : State) (d : Nat) : State :=
  let s1 := s.modTs fun t => { t with
    mem := t.mem.filter fun e => !inDie d e.1
    windows := t.windows.filter fun w => w.die != d }
  let s2 := (s1.modDie d fun x => x.wiped s.sec.nextKey).modSec fun x => { x with nextKey := x.nextKey + 1 }
  let s3 := (s2.modFlash fun f => { f with mapCache := f.mapCache.filter fun g => g % 2 != d }).modCkpt fun c => { c with
    shadow := c.shadow.filter fun x => x.1 != d }
  s3.modMgmt fun m => { m with
    planted := m.planted.filter fun e => !((e.1 == 2 || e.1 == 7) && inDie d e.2.2.1) }

/-! ## Failing rows (R377) -/

/-- A row of T0 of bench `b` remapped to a spare one; with none left the bench becomes due for
retirement. -/
def State.remapT0 (s : State) (b cause a : Nat) : State :=
  if (s.bench b).spareRows < 64 then
    (s.modBench b fun x => { x with spareRows := x.spareRows + 1 }).repair 0x09 cause b (a / 1024 * 1024)
  else s.modBench b fun x => { x with retirePending := !x.retired }

/-- A row of the T1 slice of region `r` remapped to a spare one; with none left the region becomes due for
retirement. -/
def State.remapT1 (s : State) (r cause a : Nat) : State :=
  if (s.region r).spareRows < 512 then
    (s.modRegion r fun g => { g with spareRows := g.spareRows + 1 }).repair 0x09 cause r (a / 1024 * 1024)
  else s.modRegion r fun g => { g with retirePending := true }

/-- An uncorrectable word in a T1 row counted: four distinct rows within 24 hours of up-time make the
region due for retirement (Table 18.7). -/
def State.uncorrRow (s : State) (r row : Nat) : State :=
  s.modRegion r fun g =>
    let fresh := g.uncorrRows.filter fun e => decide (s.mgmt.uptime < e.2 + 259200000) && e.1 != row
    let l := (row, s.mgmt.uptime) :: fresh
    { g with uncorrRows := l, retirePending := g.retirePending || decide (4 ≤ l.length) }

/-- The row that an entry names remapped: its bench, the region of its slice, or its DRAM stack, whose row a
scrub may have repaired already. -/
def State.remapFor (s : State) (e : JEntry) : State :=
  if e.kind = 0x01 ∧ e.memory = 0x01 then s.remapT0 e.bench 0x03 e.address.toNat
  else if e.kind = 0x01 ∧ e.memory = 0x02 then
    (s.uncorrRow e.region (e.address.toNat / 1024)).remapT1 e.region 0x03 e.address.toNat
  else if e.memory = 0x07 then
    if (s.die e.stampDie).poison.contains (e.address.toNat / 256) then s else s.repairDram (e.detail % 4) 0x03 (e.address.toNat / 8192 * 8192)
  else if e.kind = 0x01 ∧ 8 ≤ e.memory then s.repair 0x0C 0x03 e.memory e.address.toNat
  else s

/-! ## Built-in tests and retirement (R33, R112) -/

/-- An array that fails the built-in test is retired at once and journalled. -/
def State.testFailed (s : State) (g : Nat) : State :=
  (s.journal (s.stamped (benchDie (g / 4)) { kind := 0x09, region := g / 20, bench := g / 4 })).retireArray
    (g / 4) (g % 4) 0x02

/-- Arrays of a scope, in service, that the test reports as failed. -/
def State.testScope (s : State) (scope idx : Nat) (failed : List Nat) : State :=
  (failed.filter fun g => (scopeRegions scope idx).contains (g / 20) && s.arrayInService g).foldl
    State.testFailed s

/-- A region leaves service. -/
def State.retireRegion (s : State) (r cause : Nat) : State :=
  (s.modRegion r fun g => { g with st := .retired, retirePending := false, entering := 0 }).repair 0x08
    cause r 0

/-- Every pending retirement of a scope takes effect (R33: at the next reset of its region). -/
def State.retireScope (s : State) (scope idx : Nat) : State :=
  let s1 := (scopeBenches scope idx).foldl (fun t b => t.applyRetirements b 0x01) s
  let s2 := (scopeRegions scope idx).foldl (fun t r => t.retireGroups r 0x01) s1
  (scopeRegions scope idx).foldl (fun t r =>
    if (t.region r).retirePending ∧ (t.region r).st ≠ .retired then t.retireRegion r 0x01 else t) s2

/-! ## The tier manager's part (R188, R189) -/

/-- Extents of face die `d` that a reset of region `g` touches: those with a copy in its slice. -/
def State.sliceExtents (s : State) (g : Nat) : List (Nat × Extent) :=
  (s.die (dieOf g)).slots.filter fun x => (x.2.st == 1 || x.2.st == 2) && x.2.copyTier == 1 &&
    4 * dieOf g + x.2.slice == g

/-- Moves of die `d` into or out of the slice of region `g` abandoned (R176, R188). -/
def State.abandonSlice (s : State) (g : Nat) : State :=
  ((s.die (dieOf g)).slots.filter fun x => x.2.st == 2 && (x.2.copyTier == 1 || x.2.destTier == 1) &&
    4 * dieOf g + x.2.slice == g).foldl (fun t x => t.abandonMove (dieOf g) x.1) s

/-- An extent that falls back to its home and stays valid. -/
def State.fallBack (s : State) (d j : Nat) : State :=
  (s.modExtent d j fun e => { e with copyTier := e.homeTier, homeTier := 0 }).modDie d fun x => { x with
    queue := x.queue.filter fun m => !(m.slot == j && m.tier == (s.extent d j).homeTier) }

/-- R188 for region `g`: clean copies with a home fall back, the others become LOST. The state, and what
the reset's run notes: the pinned ones to be placed again and the entries of the LOST ones. -/
def State.resetSlice (s : State) (g : Nat) : State × List (Nat × Nat × Nat) × List JEntry × Nat :=
  let d := dieOf g
  let s1 := s.abandonSlice g
  (s1.sliceExtents g).foldl (fun acc x =>
    if x.2.copyDirty = [] ∧ x.2.homeTier ≠ 0 then
      (acc.1.fallBack d x.1, acc.2.1 ++ (if x.2.pinned then [(d, x.1, 1)] else []), acc.2.2.1, acc.2.2.2 + 1)
    else
      (acc.1.loseExtent d x.1, acc.2.1,
        acc.2.2.1 ++ [s.stamped d { kind := 0x0B, address := addrField (extentBase d x.1) }], acc.2.2.2))
    (s1, [], [], 0)

/-- Streams abandoned when an extent of the set became LOST (R358 reason 3, R390). -/
def State.setLost (s : State) (lost : List JEntry) : State :=
  if s.ckpt.attached && s.ckpt.setEntries.any fun e => lost.any fun l => l.address == addrField e.addr then
    (s.abandonStream true 0x03).abandonStream false 0x03
  else s

/-- What a face die reset does to the checkpoints (R358 reason 4, R359, R365): the streams are abandoned and
what lies in the die's DRAM is lost. -/
def State.ckptDieReset (s : State) : State :=
  ((s.abandonStream true 0x04).abandonStream false 0x04).heldImageLost.modCkpt fun c => { c with
    localFrames := [], localCuts := [], localManifests := [], owed := [], nextFull := true }

/-! ## Unloading (R382 step 6) -/

/-- Programs with a bench in the scope unloaded; executes that wait for one of them end with Invalid Field
in Command. -/
def State.unloadScope (s : State) (scope idx : Nat) : State × Nat :=
  let keys := s.programsIn scope idx
  let waiting := (s.host.ops.filter fun o =>
    match o.kind with
    | .execute k _ _ => keys.contains k
    | .unload k => keys.contains k
    | _ => false)
  let s1 := keys.foldl (fun t k => t.unload k) s
  (waiting.foldl (fun t o =>
    match o.kind with
    | .unload _ => t.finish o.id .success
    | _ => t.finish o.id .invalidField) s1, keys.length)

/-- Free, Place and Pin commands that wait for an extent of face die `d` when its tensor space is emptied:
their address is no extent's base any more, so they end with Invalid Field in Command (DEDUCED,
notes/assumptions/27.md: Table 12.7 gives them no 0xC0). -/
def State.dropExtentOps (s : State) (d : Nat) : State :=
  (s.host.ops.filter fun o =>
    match o.kind with
    | .free e _ _ => e == d
    | .place e _ _ _ => e == d
    | _ => false).foldl (fun t o => t.finish o.id .invalidField) s

/-! ## Module and cold resets (R20, R25, R389) -/

/-- Register blocks of the management core that a module reset returns to their reset values (R380, Tables
15.3 and 15.4), and the work that it cuts short (R444, R445). -/
def Mgmt.moduleReset (m : Mgmt) : Mgmt :=
  { m with
    scrubTarget := 0, scrubSelect := 0xF, scrubFast := false, scrubPass := (0, 0xF), scrubBusy := false, scrubDone := false
    scrubAborted := false, scrubRejected := false, dramHours := 0x18, sramMinutes := 0x3C
    scrubWords := 0, scrubCorr := 0, scrubTrial := 0, scrubUncorr := 0, scrubRemap := 0, scrubTime := 0
    scrubSince := 0, memCorr := 0, memDcorr := 0, memTrials := 0
    eccArm := false, eccMode := 0, eccMemory := 0, eccInjected := false, eccDmask := 0, eccCmask := 0
    eccAddr := 0, planted := []
    fwStaged := Buf.none, fwWork := none, fwResult := if m.fwWork.isSome then 3 else m.fwResult
    identityDue := m.identityDue ++ ([33, 34, 35, 36].filter fun i => !m.identityDue.contains i) }

/-- A controller at its saved power state (R316), which is its last operational one if it is operational (R317). -/
def Controller.startPs (k : Controller) (ps : Nat) : Controller :=
  { k with ps := ps, savedPs := ps, lastOpPs := if ps < 3 then ps else 0 }

/-- The controllers after a module or cold reset: nothing enabled, the saved power state, and CSTS.CFS where
the host does not know of the reset (R25). -/
def HostPort.freshControllers (h : HostPort) (m : Mgmt) (cfs : Bool) : Table Controller :=
  h.controllers.map fun e => (e.1,
    Controller.startPs { cfs := cfs && (e.2.en || e.2.cfs) } (tget 0 m.norPs e.1))

/-- The host port after a module or cold reset: queues, controllers and programs cleared; namespaces, and
what has been answered already, stand. Settings not saved return to the saved ones. -/
def HostPort.moduleReset (h : HostPort) (m : Mgmt) (cfs : Bool) : HostPort :=
  { h with
    powerState := 0, patrolHeld := none, patrolLost := 0, controllers := h.freshControllers m cfs, programs := [], ops := []
    earlyWarning := m.norEarlyWarning, patrolDays := m.norPatrol, encryptNew := m.norEncrypt
    powerCap0 := m.norCap0, powerCap1 := m.norCap1 }

/-- A seam stack after a module reset: counters and key registers zero, its retirements stand. -/
def Stack.moduleReset (x : Stack) : Stack :=
  { dieRetired := x.dieRetired, st := x.st, rebuilding := x.rebuilding }

/-- The flash layer after a module reset: the medium stands, what lay in the hoist die and in DRAM is gone
until mount builds it again (R276). -/
def Flash.moduleReset (f : Flash) : Flash :=
  { f with
    map := [], parts := [], queued := [], relocs := [], pins := [], pinWait := [], pinDelta := []
    openPslc := [], openQlc := [], fillQlc := [], programmed := [], mapCache := [], hmbSegs := [], reading := []
    patrolRead := [], patrolFull := false, mounted := false, throttling := false, credit := 0
    hostIu := 0, mediaIu := 0, hmbErr := 0, freePct := 0, sparePct := 0
    seam := f.seam.map fun e => (e.1, e.2.moduleReset) }

/-- A peer port after a module reset: it trains again; retired lanes stand. -/
def Port.moduleReset (p : Port) : Port :=
  { st := if p.st = 9 then 9 else 0, retiredLanes := p.retiredLanes, symRuns := p.symRuns
    eqFails := p.eqFails }

/-- The fabric after a module reset: unacknowledged messages are abandoned and their destinations are due a
RESYNC (R338); sequences, epoch and record stand. -/
def Fabric.moduleReset (f : Fabric) : Fabric :=
  { f with
    ports := f.ports.map fun e => (e.1, e.2.moduleReset)
    routeSel := 0, store := [], interval := [], unavailable := [], pendingEpoch := none, shown := false
    arrived := [], stranded := [], heldWrites := []
    resyncDue := f.resyncDue ++ ((f.store.map (·.dst)).eraseDups.filter fun d => !f.resyncDue.contains d)
    e2eRetx := 0, dupDrop := 0, redraws := 0, sigDrop := 0 }

/-- The checkpoint logic after a module reset: what DRAM held is gone, the flash images and what is known of
the partner's image stand. -/
def Ckpt.moduleReset (c : Ckpt) : Ckpt :=
  { c with
    attached := false, setEntries := [], autoCut := false, flashEnable := false
    autoTakeover := false, serving := [], phase := 0, holdFrom := 0, holdFns := [], cutOp := none, takeoverOp := none
    takeoverCoord := none, nextFull := true, owed := [], localFrames := [], localCuts := []
    localManifests := [], dueRaised := false, shadow := [], shadowPeak := 0, shadowRaised := false }

/-- The security engine after a module reset: sessions, an unused seed, the nonce and the program chain are
gone (R398, R400, R401, R411). -/
def Security.moduleReset (x : Security) : Security :=
  { x with seedHeld := none, nonce := none, measurement10 := List.replicate 64 0, sessions := [] }

/-- The clock and governor registers after a module reset (R427). -/
def Power.moduleReset (p : Power) : Power :=
  { p with
    capEff := 0x28A, capSource := 0, fastActive := false, thermalActive := false, throttled := false
    periodOverruns := 0, inputW := 0, input10mv := 0, grantF := 0x12C, grantD := 0x78, grantS := 0x60
    hottest := 0, sensor := 0, fastCount := 0, throttleCount := 0, dLimit := 4799040, sLimit := 20000
    fThrottled := false, dThrottled := false, sThrottled := false }

/-- Extents of both face dies that a module reset empties. -/
def State.slotsHeld (s : State) : Nat := s.slotsUsed 0 + s.slotsUsed 1

/-- What a module reset clears of everything but the always-on domain (R20, R25, R189, R338, R411). The
streams that run are abandoned and the image held for the partner is lost (R358, R359). -/
def State.moduleWipe (s : State) (cfs : Bool) : State :=
  let s0 := s.modHost fun h => { h with controllers := h.controllers.map fun e => (e.1, { e.2 with rdy := false }) }
  let s1 := ((s0.abandonStream true 0x04).abandonStream false 0x04).heldImageLost
  let s2 := ((((s1.wipeRegions 3 0).wipeDie 0).wipeDie 1).modDie 0 fun x => { x with hoist := {} }).modDie 1
    fun x => { x with hoist := {} }
  let s3 := (List.range 8).foldl (fun t r => (t.dropHeld r).modRegion r fun g =>
    if g.st = .retired then g else { g with st := .reset }) s2
  (((((((s3.modHost fun h => h.moduleReset s.mgmt cfs).modFlash Flash.moduleReset).modFabric
    Fabric.moduleReset).modCkpt Ckpt.moduleReset).modSec Security.moduleReset).modMgmt
    Mgmt.moduleReset).modPower Power.moduleReset).modScans fun _ => []

/-- The fabric that the straps and the stored configuration give at a cold reset (R320, R323, R389). -/
def Fabric.coldStart (f : Fabric) (mfg : Mfg) (cfg : Option (Word × Word)) : Fabric :=
  let base : Fabric :=
    { position := mfg.pinPosition, spare := mfg.pinSpare, spareIndex := mfg.pinSpareIndex
      ports := f.ports.map fun e => (e.1, e.2.moduleReset)
      sent := f.sent, coldResync := true }
  match cfg with
  | none => base
  | some (dw10, dw11) =>
    { base with
      configured := true, epoch := 1, board := fld dw10 8 0
      sizeX := fld dw10 11 9 * 2 + 2, sizeY := fld dw10 14 12 * 2 + 2, sizeZ := fld dw10 17 15 * 2 + 2
      routeTimeout := if fld dw11 15 0 = 0 then 100 else fld dw11 15 0 }

/-- What a cold reset clears besides: the always-on domain (R20, R391, R415, R433, R452). The cold-cause and
sideband latches stand, and what the NOR store keeps is loaded again; `cut` tells that a firmware commit was
cut short (R445). -/
def State.coldWipe (s : State) (cause : Nat) (cut : Bool) : State :=
  let m := s.mgmt
  let s1 := s.modMgmt fun x => { x with
    halted := false, kickAge := 0, monitors := [], journal := [], journalTotal := 0, coldCause := cause
    fwResult := if cut then 3 else 0, uptime := x.uptimeSaved, attnPresses := 0, attnBlink := false, locate := 0, identities := []
    stageCap := false, stageSilent := [], plateAge := 0, identityDue := List.range 54 }
  let s2 := s1.modHost fun h => { h with
    dual := m.norDual, p0Speed := 0, p0Width := 0, p1Speed := 0, p1Width := 0 }
  let s3 := (s2.modTs fun t => { t with reserveGb := m.norReserve }).modFabric fun f =>
    f.coldStart s.mfg m.norFabric
  let s4 := ((s3.modDie 0 fun x => { x with held := false }).modDie 1 fun x => { x with held := false })
  let s5 := s4.modCkpt fun c => { c with
    interruptions := [], costs := [], history := [], abandoned := 0, lastAbandon := 0, takeoverResult := 0 }
  let s6 := s5.modClk fun _ => {}
  (s6.modSec fun x => { x with booted := false, transition := none }).modPower fun p => { p with
    shutdown := false, identityDone := false, temps := [], inputDw := 0, traffic := [] }

/-- The run of a module or cold reset: running resets are absorbed (R24). -/
def State.wideRun (s : State) (scope : Nat) (e : JEntry) (freed unloaded : Nat) : State :=
  { s with resets := [{
      scope := scope, idx := 0
      entry := { e with scope := scope, lost := freed, unloaded := unloaded }
      absorbed := s.resets.flatMap fun r => { r.entry with flags := r.entry.flags ||| 1 } :: r.absorbed }] }

/-- A module reset (R20): absorbed where a module or cold reset already runs (R24). -/
def State.moduleReset (s : State) (cfs : Bool) (e : JEntry) : State :=
  if s.resets.any fun r => scopeWithin 3 0 r.scope r.idx then s.trigger 3 0 e
  else (s.wideRun 3 e s.slotsHeld (s.host.programs.filter fun p => p.2.kind == 2).length).moduleWipe cfs

/-- A cold reset (R20), which a running cold reset absorbs. -/
def State.coldReset (s : State) (cause : Nat) : State :=
  if s.resets.any fun r => r.scope == 4 then s.trigger 4 0 { kind := 0x10, detail := cause }
  else
    let t := s.wideRun 4 { kind := 0x10, detail := cause } s.slotsHeld
      (s.host.programs.filter fun p => p.2.kind == 2).length
    (t.moduleWipe false).coldWipe cause s.mgmt.fwWork.isSome

/-! ## The commands -/

/-- True when the domains that a reset acts on have power. -/
def State.powered (s : State) : Bool := s.power.on

/-- The unit that a logic error of kind 0x04 names by `memory` (notes/assumptions/22.md): kind of Table 18.8
and item. -/
def unitItem (memory region bench a : Nat) : Nat × Nat :=
  match memory with
  | 0x03 => (0x05, bench)
  | 0x04 => (0x01, 4 * bench + a % 4)
  | 0x05 => (0x04, bench)
  | 0x06 => (0x03, bench)
  | _ => (0x06, 4 * region + a % 4)

/-- REGION_RESET (R20, R21, R24, R382): an uncorrectable word of the region's memories (kind 0x01), an error
in the logic of one of its units (0x04), or a retirement that needs it (0x08). -/
def execRegionReset (region kind memory bench : Nat) (addr : DWord) (s : State) :
    Host.Outcome State Fault Refusal :=
  .next (if s.powered = false ∨ (s.region region).st = .retired ∨ !(kind == 1 || kind == 4 || kind == 8) then s
  else
    let u := unitItem memory region bench addr.toNat
    let t := if kind = 4 then s.unitFailed u.1 u.2 else s
    t.trigger 1 region (t.stamped (dieOf region)
      { kind := kind, memory := if kind = 1 then memory else 0, region := region, bench := bench
        address := if kind = 4 then 0 else addr, flags := s.testFlag memory bench addr.toNat }))

/-- FACE_DIE_RESET (R20, R24): uncorrectable DRAM data consumed (kind 0x02) or a die fabric error (0x05). -/
def execFaceDieReset (die kind memory detail : Nat) (addr : DWord) (s : State) :
    Host.Outcome State Fault Refusal :=
  .next (if s.powered = false ∨ !(kind == 2 || kind == 5) then s
  else s.trigger 2 die (s.stamped die
    { kind := kind, memory := if kind = 2 then memory else 0, address := addr
      detail := if kind = 2 then detail else 0, flags := s.testFlag 7 0 addr.toNat }))

/-- DIE_FABRIC_ERROR (R386): the fourth failure of a transfer across a die bridge. -/
def execDieFabricError (die : Nat) (s : State) : Host.Outcome State Fault Refusal :=
  .next (if s.powered then s.trigger 2 die (s.stamped die { kind := 0x05 }) else s)

/-- MODULE_RESET (R20): an uncorrectable error in a hoist die memory (kind 0x01), DRAM data consumed by a
control core (0x02), an NVM Subsystem Reset (0x06) or PERST# on every port (0x07). The controllers that were
enabled report CSTS.CFS where the host did not cause it (R25). -/
def execModuleReset (kind memory : Nat) (s : State) : Host.Outcome State Fault Refusal :=
  .next (if s.powered = false ∨ !(kind == 1 || kind == 2 || kind == 6 || kind == 7) then s
  else
    let t := if kind = 1 ∧ 8 ≤ memory then s.remapFor { kind := kind, memory := memory } else s
    t.moduleReset (decide (kind ≤ 2)) (t.stamped 2 { kind := kind, memory := memory }))

/-- COLD_RESET (R20, R391). -/
def execColdReset (cause : Nat) (s : State) : Host.Outcome State Fault Refusal := .next (s.coldReset cause)

/-! ## The end of a life-cycle change (R410, Table 16.9) -/

/-- Step 4 of R410: the key sets of Table 16.9 erased. Sectors 10-15 stay on PROVISIONED to DEPLOYED. -/
def State.eraseKeys (s : State) (target : LifeCycle) : State :=
  let n := s.sec.lcRecord.length
  let keep := target == .deployed && lcOfCode ((s.sec.lcRecord.take (n - 1)).getLast?.getD 0) == .provisioned
  let s1 := s.modSec fun x => { x with
    chain1 := if keep then x.chain1 else Buf.none
    programDigest := if keep then x.programDigest else []
    signRequired := x.signRequired && keep
    seedCopies := if target = .decommissioned then [] else
      (match x.seedCopies with | [] => [] | a :: _ => [a, a])
    chain0 := if target = .decommissioned then Buf.none else x.chain0 }
  let s2 := s1.modMgmt fun m => { m with
    norEarlyWarning := 0x0A1402FF#32, norPatrol := 7, norEncrypt := true, norCap0 := 650, norCap1 := 650
    norPs := [] }
  s2.modCkpt fun c => { c with
    flashCommitted := 0, flashCut0 := 0, flashCut1 := 0, flashFrames0 := [], flashFrames1 := [] }

/-- Step 5 of R410: every namespace deleted and the completion record written. -/
def State.deleteAll (s : State) (target : LifeCycle) : State :=
  let ids := (s.host.namespaces.filter fun e => e.2.active).map (·.1)
  let s1 := ids.foldl (fun t n => t.commitGroup [.dealloc n 0 (2 ^ 40)]) s
  let s2 := s1.modHost fun h => { h with namespaces := [] }
  let s3 := s2.modSec fun x => { x with completionRecord := target.code, transition := none }
  if target = .deployed then s3.releaseDirect else s3

/-- Steps 4 and 5 for the fused state when the completion record differs from it. -/
def State.completeTransition (s : State) : State :=
  if s.sec.completionRecord = s.lifeCycle.code then s
  else (s.eraseKeys s.lifeCycle).deleteAll s.lifeCycle

/-! ## RESET_COMPLETE (R382 steps 3 to 7) -/

/-- Regions of a scope back in service, asleep; those of a face die held in RESET stay there (R438). -/
def State.backInService (s : State) (scope idx : Nat) : State :=
  (scopeRegions scope idx).foldl (fun t r =>
    if (t.region r).st = .reset ∧ (t.die (dieOf r)).held = false then
      t.modRegion r fun g => { g with st := .sleep, idleSince := none }
    else t) s

/-- The entries of a reset posted: absorbed triggers, the trigger itself with its counts, LOST extents. -/
def State.journalRun (s : State) (r : ResetRun) (e : JEntry) (lost : List JEntry) (us : Nat) : State :=
  let s1 := r.absorbed.foldl (fun t a => t.journal { a with duration := us }) s
  lost.foldl State.journal (s1.journal { e with duration := us })

/-- Steps 3 to 7 of a region or face die reset. -/
def State.finishRun (s : State) (r : ResetRun) (failed : List Nat) (us : Nat) : State :=
  let s1 := (r.entry :: r.absorbed).foldl State.remapFor s
  let x : State × List (Nat × Nat × Nat) × List JEntry × Nat :=
    if r.scope = 1 then s1.resetSlice r.idx else (s1, [], [], 0)
  let freed := if r.scope = 2 then s1.slotsUsed r.idx else 0
  let u := x.1.unloadScope r.scope r.idx
  let s2 := u.1.wipeRegions r.scope r.idx
  let s3 := if r.scope = 2 then ((s2.wipeDie r.idx).dropExtentOps r.idx).ckptDieReset else s2.setLost x.2.2.1
  let s4 := (s3.testScope r.scope r.idx failed).retireScope r.scope r.idx
  let s5 := if r.scope = 2 then
      s4.modMgmt fun m => { m with identityDue :=
        m.identityDue ++ ([33 + 2 * r.idx, 34 + 2 * r.idx].filter fun i => !m.identityDue.contains i) }
    else s4
  let s6 := r.posts.foldl (fun t c => t.post c.1 c.2) (s5.backInService r.scope r.idx)
  let s7 := s6.journalRun r
    { r.entry with lost := x.2.2.1.length + freed, fallen := x.2.2.2, unloaded := u.2 } x.2.2.1 us
  let s8 := s7.raiseAlso (if r.scope = 1 then 0x30 else 0x31) 0xC2 r.fns
  let s9 := x.2.1.foldl (fun t p => t.requestMove p.1 p.2.1 p.2.2 4) s8
  (if s9.activePorts.isEmpty then s9 else s9.sendResyncs).stream.settle

/-- The end of a module or cold reset: the built-in tests have run and the regions are back, asleep. -/
def State.finishWide (s : State) (r : ResetRun) (failed : List Nat) (us : Nat) : State :=
  let s1 := ((r.absorbed.foldl State.remapFor s).testScope r.scope 0 failed).retireScope r.scope 0
  (s1.backInService r.scope 0).journalRun r r.entry [] us

/-- The place among the running resets of the one that ends next: resets of disjoint scopes run at the same time, and
the spec gives no order of their ends (R24). -/
def State.endingReset (s : State) : Nat :=
  match s.resets with
  | [_] => 0
  | l => Config.endsNext s.mgmt.journalTotal % l.length

/-- RESET_COMPLETE (R24, R382): a running reset ends after `duration` µs, any one of those that run at the same time
(a free value, notes/assumptions/105.md); `failed` are the arrays that fail the built-in test. A cold reset ends once
the boot chain has handed over (R396); the module reset of a Life Cycle Transition is followed by the rest of R410
and its cold reset. -/
def execResetComplete (failed : List Nat) (duration : Nat) (s : State) : Host.Outcome State Fault Refusal :=
  .next (match s.resets[s.endingReset]? with
  | none => s
  | some r =>
    let t := { s with resets := s.resets.eraseIdx s.endingReset }
    if r.scope ≤ 2 then t.finishRun r failed duration
    else if r.scope = 4 ∧ s.sec.booted = false then s
    else
      let u := t.finishWide r failed duration
      if r.scope = 3 ∧ s.sec.transition.isSome then u.completeTransition.coldReset 0x04 else u)

end Sys2Proof.Machine
end

