-- ==== Sys2Proof/Machine/Control.lean ====
section
/-! DEFINITION. Controllers: enabling, readiness and the host-side resets, queues, event requests, power
states and the Host Memory Buffer (R293-R300, R314, R316-R318). -/

namespace Sys2Proof.Machine

/-! ## The end of a controller's commands (Table 12.2) -/

/-- Operation `i` forgotten without a completion. -/
def State.forget (s : State) (i : Nat) : State :=
  (s.dropOp i).modFabric fun f => { f with
    store := f.store.map fun m => if m.op = some i then { m with op := none } else m }

/-- One outstanding command ended by a controller reset: a running execute stops as an Abort would stop it,
a write that has been accepted still takes effect, and no other command does. -/
def State.endCommand (s : State) (o : Op) : State :=
  let t := s.forget o.id
  match o.kind with
  | .execute k _ started => if started then t.stopExecution k false none else t
  | .scan i => t.releaseScan i
  | .write ps _ => t.modFlash fun f => { f with
      parts := f.parts.filter fun p => !(ps.contains p.id && p.stage == 0) }
  | .peerBind d j _ => t.modTs fun x => { x with
      windows := x.windows.filter fun w => !(w.die == d && w.slot == j && !w.accept && !w.confirmed) }
  | .cut _ _ => if t.ckpt.phase = 1 ∧ t.ckpt.cutOp = some o.id then
      t.modCkpt fun c => { c with phase := 0, cutOp := none, holdFns := [] } else t
  | .place d j tier _ => (t.modDie d fun x => { x with
      queue := x.queue.filter fun m => !(m.slot == j && m.tier == tier && (m.cls == 4 || m.cls == 1)) }).modExtent d j
        fun e => { e with pinOnCommit := false }
  | .firmwareCommit _ => t.modMgmt fun m => { m with fwWork := none }
  | .restore _ _ => if t.ckpt.phase = 3 then t.modCkpt fun c => { c with phase := 0, holdFns := [] } else t
  | _ => t

/-- Every outstanding command of the functions `fns` ended. -/
def State.endCommands (s : State) (fns : List Nat) : State :=
  (s.host.ops.filter fun o => fns.contains o.src.fn).foldl State.endCommand s

/-- A controller as a controller reset leaves it: queues gone, APST disabled (R317), the saved power state;
quotas and the admin queue attributes stand. -/
def Controller.cleared (k : Controller) (ps : Nat) : Controller :=
  Controller.startPs { quota1 := k.quota1, quota2 := k.quota2, quota3 := k.quota3, aqa := k.aqa } ps

/-- The controllers of `fns` reset (CC.EN cleared). -/
def State.resetControllers (s : State) (fns : List Nat) : State :=
  (fns.foldl (fun t f => t.modCtl f fun k => k.cleared (tget 0 t.mgmt.norPs f)) (s.endCommands fns)).trimHmb.settlePower

/-- Extents of a function freed (R166), unshared ones only; a checkpoint set that names one of them is
detached and its streams are abandoned. -/
def State.freeExtents (s : State) (fns : List Nat) : State :=
  let mine := (List.range 2).flatMap fun d => ((s.die d).slots.filter fun x =>
    x.2.st != 0 && !x.2.shared && fns.contains x.2.owner).map fun x => (d, x.1)
  let s1 := if mine.any fun x => s.inSet x.1 x.2 then
      ((s.abandonStream true 0x03).abandonStream false 0x03).modCkpt fun c => { c with
        attached := false, setEntries := [], nextFull := true, owed := [] }
    else s
  mine.foldl (fun t x => t.freeExtent x.1 x.2) s1

/-- Function Level Reset of the functions `fns` (Table 12.2): as CC.EN cleared, and their programs are
unloaded, their unshared extents freed and their quotas back at the whole pool. -/
def State.resetFunctions (s : State) (fns : List Nat) : State :=
  let s1 := s.resetControllers fns
  let keys := (s1.host.programs.map (·.1)).filter fun k => fns.contains (k / 16)
  let s2 := (keys.foldl (fun t k => t.unload k) s1).freeExtents fns
  (fns.foldl (fun t f => t.modCtl f fun k => { k with
    quota1 := none, quota2 := none, quota3 := none, aqa := 0 }) s2).settle

/-- SPDM sessions of a port's PF ended (R400). -/
def State.endSessions (s : State) (port : Nat) : State :=
  s.modSec fun x => { x with sessions := x.sessions.filter fun y => y.port != port }

/-! ## Enabling -/

/-- True when a function exists in the port mode in effect. -/
def State.hasFn (s : State) (fn : Nat) : Bool := decide (fn < 17) || (s.host.dual && decide (fn < 34))

/-- True when PERST# of the port of function `fn` holds it in reset (R22, Table 18.6). -/
def State.inPerst (s : State) (fn : Nat) : Bool := (tget {} s.mgmt.sideband (fn / 17)).level

/-- Entries of an admin queue from its zero-based size in AQA: 2 to 4,096 (Table 12.3). For a size below 2, to which the
spec gives no outcome, the queue has 2 (notes/assumptions/118.md). -/
def adminEntries (n : Nat) : Nat := Nat.max 2 (n + 1)

/-- CC.EN set in the controller of function `fn` with the rest of CC. -/
def State.enableCtl (s : State) (fn : Nat) (cc : Word) : State :=
  if s.power.on = false ∨ s.hasFn fn = false ∨ s.inPerst fn = true ∨ (s.ctl fn).en = true ∨
      (s.ctl fn).cfs = true then s
  else s.modCtl fn fun k => { Controller.startPs k (tget 0 s.mgmt.norPs fn) with
    en := true, cc := cc
    sqs := [(0, { entries := adminEntries (fld k.aqa 11 0), cq := 0 })]
    cqs := [(0, { entries := adminEntries (fld k.aqa 27 16) })] }

/-- CONTROLLER_ENABLE (R296, R299): CC.EN set. CSTS.RDY stays 0 until CONTROLLER_READY; after CSTS.CFS the
host first clears CC.EN (R25). -/
def execControllerEnable (fn : Nat) (cc : Word) (s : State) : Host.Outcome State Fault Refusal :=
  .next (s.enableCtl fn cc)

/-- Events of stuck inputs that waited for a ready controller raised (Table 18.6, input 3). -/
def State.raiseOwed (s : State) : State :=
  if s.mgmt.sideband.any fun e => e.2.owed then
    (s.modMgmt fun m => { m with sideband := m.sideband.map fun e => (e.1, { e.2 with owed := false }) }).raise
      0x51 0xC3
  else s

/-- CONTROLLER_READY (R299): mount has completed and no wipe runs. -/
def execControllerReady (fn : Nat) (s : State) : Host.Outcome State Fault Refusal :=
  .next (if (s.ctl fn).en = true ∧ (s.ctl fn).rdy = false ∧ s.flash.mounted = true ∧ s.power.on = true ∧
      s.power.shutdown = false ∧ !(s.resets.any fun r => decide (2 ≤ r.scope)) then
    ((s.modCtl fn fun k => { k with rdy := true, idleSince := s.now }).settlePower).raiseOwed
  else s)

/-- CONTROLLER_DISABLE (Table 12.2): CC.EN cleared. -/
def execControllerDisable (fn : Nat) (s : State) : Host.Outcome State Fault Refusal :=
  .next (s.resetControllers [fn]).settle

/-- An NVM Subsystem Reset written through the controller of function `fn`. -/
def State.subsystemReset (s : State) (fn : Nat) : State :=
  if s.power.on = false ∨ s.hasFn fn = false then s
  else s.moduleReset false (s.stamped 2 { kind := 0x06 })

/-- NVM_SUBSYSTEM_RESET (R20, R294): a module reset, which posts nothing and sets no CSTS.CFS (R25). -/
def execNvmSubsystemReset (fn : Nat) (s : State) : Host.Outcome State Fault Refusal :=
  .next (s.subsystemReset fn)

/-- FUNCTION_LEVEL_RESET (R294, R400): of a PF, it covers its VFs and ends its SPDM sessions. -/
def execFunctionLevelReset (fn : Nat) (s : State) : Host.Outcome State Fault Refusal :=
  .next (if s.power.on = false ∨ s.hasFn fn = false then s
  else if isPf fn then (s.endSessions (fn / 17)).resetFunctions (pfGroup fn)
  else s.resetFunctions [fn])

/-! ## Queues and event requests -/

/-- The tail of a submission queue written. -/
def State.ringSq (s : State) (fn sq tail : Nat) : State :=
  if (s.ctl fn).rdy ∧ thas (s.ctl fn).sqs sq ∧ tail < (tget {} (s.ctl fn).sqs sq).entries then
    s.modCtl fn fun k => { k with sqs := tmod {} k.sqs sq fun q => { q with tail := tail } }
  else s

/-- SQ_DOORBELL (R295, R296): a submission queue's tail. -/
def execSqDoorbell (fn sq tail : Nat) (s : State) : Host.Outcome State Fault Refusal :=
  .next (s.ringSq fn sq tail)

/-- Queue pairs of a function (Table 12.3). -/
def queueLimit (fn : Nat) : Nat := if isPf fn then 64 else 16

/-- What a function supports of PCI Express 5.0 (Table 12.1): sizes in bytes; the module supports nothing else of it,
and no ATS, PRI or PASID (R291). -/
structure PcieSupport where
  msixVectors : Nat
  bar0 : Nat
  payload : Nat × Nat := (128, 512)
  readRequest : Nat × Nat := (128, 4096)
  tenBitTags : Bool := true
  outstandingReads : Nat := 512
  ari : Bool := true
  flr : Bool := true
  vfs : Nat
  aer : Bool := true
  doe : Bool
  aspmL1 : Bool := true
deriving DecidableEq, Repr

/-- The support of function `fn`: 65 vectors, 64 MiB of BAR0, 16 VFs and Data Object Exchange on a PF; 17 vectors and
16 KiB on a VF (Table 12.1). -/
def pcieSupport (fn : Nat) : PcieSupport :=
  if isPf fn then { msixVectors := 65, bar0 := barSize fn, vfs := 16, doe := true }
  else { msixVectors := 17, bar0 := barSize fn, vfs := 0, doe := false }

/-- CREATE_IO_QUEUE (R295). Of a completion queue, `cq` is the interrupt vector and `prio` 1 enables its interrupt (the
fields of NVMe, notes/assumptions/118.md). -/
def execCreateIoQueue (c : Src) (isCq : Bool) (qid entries cq prio : Nat) (s : State) :
    Host.Outcome State Fault Refusal :=
  .next (hostCmd c .operational (fun t =>
    let k := t.ctl c.fn
    if qid = 0 ∨ queueLimit c.fn < qid ∨ (if isCq then thas k.cqs qid else thas k.sqs qid) = true then
      t.done c .invalidQueueId
    else if entries < 2 ∨ 4096 < entries then t.done c .invalidQueueSize
    else if isCq = true ∧ (pcieSupport c.fn).msixVectors ≤ cq then t.done c .invalidInterruptVector
    else if isCq then (t.modCtl c.fn fun x => { x with
      cqs := tset x.cqs qid { entries := entries, vector := cq, interrupts := prio % 2 == 1 } }).done c .success
    else if cq = 0 ∨ thas k.cqs cq = false then t.done c .completionQueueInvalid
    else (t.modCtl c.fn fun x => { x with
      sqs := tset x.sqs qid { entries := entries, cq := cq, prio := prio } }).done c .success) s)

/-- ASYNCHRONOUS_EVENT_REQUEST (R314): it completes with the oldest event that waits, or waits for one. -/
def execAsynchronousEventRequest (c : Src) (s : State) : Host.Outcome State Fault Refusal :=
  .next (hostCmd c .operational (fun t =>
    match (t.ctl c.fn).aenQueue with
    | (code, log) :: rest =>
      let t1 := t.modCtl c.fn fun k => { k with aenQueue := rest }
      let t2 := t1.modHost fun h => { h with aens := h.aens ++ [{ fn := c.fn, code := code, log := log }] }
      t2.doneDw c .success (aenDword code log) 0
    | [] =>
      if Config.aerLimit < (t.ctl c.fn).aers.length then t.done c .aerLimitExceeded
      else t.modCtl c.fn fun k => { k with aers := k.aers ++ [c.cid] }) s)

/-! ## Power states (R316-R318) -/

/-- Commands of a function that are outstanding. -/
def State.outstanding (s : State) (fn : Nat) : Bool := s.host.ops.any fun o => o.src.fn == fn

/-- A controller asks for power state `ps`; a non-operational one waits until it has no outstanding command
(R317). -/
def State.askPower (s : State) (fn ps : Nat) : State :=
  (s.modCtl fn fun k =>
    if ps < 3 then { k with ps := ps, lastOpPs := ps, idlePs := none }
    else if s.outstanding fn then { k with idlePs := some ps }
    else { k with ps := ps, idlePs := none }).settlePower

/-- POWER_MANAGEMENT (R316): Set Features Power Management. -/
def execPowerManagement (c : Src) (ps : Nat) (save : Bool) (s : State) :
    Host.Outcome State Fault Refusal :=
  .next (hostCmd c .operational (fun t =>
    if 4 < ps then t.done c .invalidField
    else
      let t1 := if save then
          (t.modMgmt fun m => { m with norPs := tset m.norPs c.fn ps }).modCtl c.fn fun k => { k with savedPs := ps }
        else t
      (t1.done c .success).askPower c.fn ps) s)

/-- A controller with a setting made. -/
def Controller.set (k : Controller) (x : HostSetting) (table : List (Nat × Nat)) : Controller :=
  match x with
  | .apst on => { k with apst := on, apstTable := table }
  | .arbitration burst low medium high =>
    { k with arb := { k.arb with burst := burst, low := low, medium := medium, high := high, credits := [] } }
  | .eventsOff codes => { k with eventsOff := codes }
  | .permissive on => { k with permissive := on }

/-- AUTONOMOUS_POWER_STATE_TRANSITION (R317): the table may name non-operational states only. The row also carries the
features of NVMe that have no row of their own (R296, R314, R318; notes/assumptions/115.md). -/
def execAutonomousPowerStateTransition (c : Src) (setting : HostSetting) (table : List (Nat × Nat)) (s : State) :
    Host.Outcome State Fault Refusal :=
  .next (hostCmd c .operational (fun t =>
    if table.any fun e => decide (0 < e.2) && !(e.1 == 3 || e.1 == 4) then t.done c .invalidField
    else (t.modCtl c.fn fun k => k.set setting table).holdPatrol.done c .success) s)

/-- The non-operational state that a controller's table names for its state, once its idle time in ms has
passed. -/
def Controller.idleTarget (k : Controller) (now : Nat) : Option Nat :=
  match k.idlePs with
  | some p => some p
  | none =>
    match k.apstTable[k.ps]? with
    | some (p, ms) =>
      if k.apst ∧ 0 < ms ∧ k.ps < p ∧ k.idleSince + 3000 * ms ≤ now then some p else none
    | none => none

/-- POWER_STATE_IDLE_ENTRY (R317): with no outstanding command, the controller enters the non-operational
state that was asked for, or that APST names after its idle time. -/
def execPowerStateIdleEntry (fn : Nat) (s : State) : Host.Outcome State Fault Refusal :=
  .next (if (s.ctl fn).rdy = false ∨ s.outstanding fn = true then s
  else match (s.ctl fn).idleTarget s.now with
  | none => s
  | some p => (s.modCtl fn fun k => { k with ps := p, idlePs := none }).settlePower)

/-! ## Host Memory Buffer (R300) -/

/-- Bytes of Host Memory Buffer used of what is granted: HMPRE at most (Table 12.4). -/
def State.hmbLimit (s : State) : Nat := if s.host.dual then 17179869184 else 34359738368

/-- HOST_MEMORY_BUFFER (R300): physical functions only; all that is granted is used, up to HMPRE. -/
def execHostMemoryBuffer (c : Src) (enable : Bool) (bytes : Nat) (s : State) :
    Host.Outcome State Fault Refusal :=
  .next (hostCmd c .operational (fun t =>
    if isPf c.fn = false then t.done c .invalidField
    else ((t.modCtl c.fn fun k => { k with
      hmbBytes := if enable then Nat.min bytes t.hmbLimit else 0 }).trimHmb).done c .success) s)

end Sys2Proof.Machine
end

