-- ==== Sys2Proof/Machine/Firmware.lean ====
section
/-! DEFINITION. Firmware: the banks and their verification, the boot chain, and the download and commit of an
image (R394-R397, R442-R446). -/

namespace Sys2Proof.Machine

/-! ## Banks (R394, R395) -/

/-- "SKDFW001". -/
def fwContext : List Byte := [0x53, 0x4B, 0x44, 0x46, 0x57, 0x30, 0x30, 0x31]

/-- sequence of a header. -/
def FwBank.sequence (b : FwBank) : Nat := b.header.getLe 8 8
/-- key_slot of a header. -/
def FwBank.keySlot (b : FwBank) : Nat := b.header.getLe 6 1
/-- SHAKE256 of header bytes 0x000-0x05F, `n` bytes of it. -/
def FwBank.headerDigest (b : FwBank) (n : Nat) : List Byte := Config.shake256 n (b.header.getBytes 0 0x60)

/-- The commit record of a header: its sequence and 56 bytes of digest (R394). -/
def FwBank.record (b : FwBank) : List Byte := leBytes 8 b.sequence ++ b.headerDigest 56

/-- True when a bank's commit record is present and matches its header. -/
def FwBank.committed (b : FwBank) : Bool := !b.commit.isEmpty && b.commit.getBytes 0 64 == b.record

/-- The longest body of a bank: 30.9 MiB (R394). -/
def bodyBytes : Nat := 32400998

/-- fw_magic, fw_version and the reserved fields of Table 16.3, and a body no longer than R394 allows. -/
def FwBank.fieldsOk (b : FwBank) : Bool :=
  let h := b.header
  h.getLe 0 4 == 0xF1A7B007 && h.getLe 4 2 == 1 && decide (b.keySlot ≤ 2) && decide (h.getLe 7 1 < 8) &&
    decide (h.getLe 0x10 2 ≤ 64) && decide (h.getLe 0x12 2 ≤ h.getLe 0x10 2) && h.zeroAt 0x14 4 &&
    decide (h.getLe 0x18 4 ≤ bodyBytes) && h.zeroAt 0x1C 4 && h.zeroAt 0x14ED 2835

/-- True when a bank verifies (R395). -/
def State.bankVerifies (s : State) (b : FwBank) : Bool :=
  let key := b.header.getBytes 0x60 1952
  b.committed && b.fieldsOk && !bitOf s.sec.slotRevoked b.keySlot &&
    Config.shake256 64 key == Config.vendorKeyDigest b.keySlot && decide (s.sec.svn ≤ b.header.getLe 0x10 2) &&
    Config.mlDsaVerify key (fwContext ++ b.headerDigest 64) (b.header.getBytes 0x800 3309) &&
    b.header.getLe 0x18 4 == b.body.len && Config.shake256 64 b.body.toBytes == b.header.getBytes 0x20 64

/-- Bank `k`. -/
def State.bank (s : State) (k : Nat) : FwBank := if k = 0 then s.sec.bank0 else s.sec.bank1

/-- The state with bank `k` set. -/
def State.setBank (s : State) (k : Nat) (b : FwBank) : State :=
  s.modSec fun x => if k = 0 then { x with bank0 := b } else { x with bank1 := b }

/-- The bank that an image makes once its commit record is programmed. -/
def imageBank (image : Buf) : FwBank :=
  let h := Mem.copyIn [] 0 image.bytes 0 8192
  let n := h.getLe 0x18 4
  let b : FwBank := { header := h, body := { len := n, bytes := image.bytes.slice 8192 n 0 } }
  { b with commit := Mem.ofBytes b.record }

/-! ## The boot chain (R396, R443) -/

/-- The bank that boots: the verifying one of higher sequence, bank 0 on equal sequences. -/
def State.bootChoice (s : State) : Option Nat :=
  match s.bankVerifies s.sec.bank0, s.bankVerifies s.sec.bank1 with
  | true, true => some (if s.sec.bank0.sequence < s.sec.bank1.sequence then 1 else 0)
  | true, false => some 0
  | false, true => some 1
  | false, false => none

/-- Hand-over to bank `k`: svn fuses blown up to min_svn, and the slots that revoke_mask names but the
running one. -/
def State.handOver (s : State) (k : Nat) : State :=
  let b := s.bank k
  let slot := b.keySlot
  let mask := b.header.getLe 7 1
  s.modSec fun x => { x with
    booted := true, bootBank := k, bootSlot := slot
    svn := Nat.max x.svn (b.header.getLe 0x12 2)
    slotRevoked := x.slotRevoked ||| (mask &&& (7 - 2 ^ slot)) }

/-- BOOT_CHAIN (R396, R410, R443): after a cold reset. An erase cut short is done again, a life-cycle change
cut short is completed, and the newest verifying bank is handed over to; without one the module waits for an
image. -/
def execBootChain (s : State) : Host.Outcome State Fault Refusal :=
  .next (if s.power.on = false ∨ s.sec.booted = true ∨ !(s.resets.any fun r => r.scope == 4) then s
  else
    let s1 := (s.modMgmt fun m => { m with norIntent := [] }).completeTransition
    match s1.bootChoice with
    | none => s1
    | some k => s1.handOver k)

/-! ## Download and commit (R397, R444, R446) -/

/-- Bytes of a bank: 31 MiB. -/
def bankBytes : Nat := 32505856

/-- A fragment merged into the staged image. -/
def stageImage (b : Buf) (offset : Nat) (data : Buf) : Buf :=
  { len := Nat.max b.len (offset + data.len), bytes := b.bytes.copyIn offset data.bytes 0 data.len }

/-- FIRMWARE_IMAGE_DOWNLOAD (R444, R446): a fragment is staged; while no bank boots, the boot ROM takes it
over NVMe-MI. -/
def execFirmwareImageDownload (c : Src) (offset : Nat) (data : Buf) (s : State) :
    Host.Outcome State Fault Refusal :=
  let put := fun t : State => t.modMgmt fun m => { m with fwStaged := stageImage m.fwStaged offset data }
  let bad := decide (data.len = 0 ∨ offset % 4 ≠ 0 ∨ data.len % 4 ≠ 0 ∨ bankBytes < offset + data.len)
  .next (if s.sec.booted = false ∧ s.power.on = true then
    if bad then s.modMgmt fun m => { m with miReplies := m.miReplies ++ [.error] }
    else (put s).modMgmt fun m => { m with miReplies := m.miReplies ++ [.number 0] }
  else hostCmd c .operational (fun t => if bad then t.done c .invalidField else (put t).done c .success) s)

/-- The bank that a firmware slot names. -/
def slotBank (slot : Nat) : Option Nat := if slot = 1 then some 0 else if slot = 2 then some 1 else none

/-- Sectors of 64 KiB that a commit erases: those of the image and the bank's last one. -/
def sectorsFor (image : Buf) : Nat := Nat.min 496 (ceilDiv image.len 65536 + 1)

/-- The boot ROM's commit over NVMe-MI while no bank boots (R446): bank 0 is written and verified, and a cold
reset follows. -/
def State.romCommit (s : State) (action slot : Nat) : State :=
  let b := imageBank s.mgmt.fwStaged
  let reply := fun (t : State) r => t.modMgmt fun m => { m with miReplies := m.miReplies ++ [r] }
  if action ≠ 1 ∨ slot ≠ 1 then reply s .error
  else if s.bankVerifies b = false then reply (s.modMgmt fun m => { m with fwResult := 2 }) .error
  else (reply (s.setBank 0 b) (.number 0)).coldReset 0x05

/-- FIRMWARE_COMMIT (R397, R444): the checks come before any erase; the command completes when the bank has
been written and read back. -/
def execFirmwareCommit (c : Src) (action slot : Nat) (s : State) : Host.Outcome State Fault Refusal :=
  .next (if s.sec.booted = false ∧ s.power.on = true then s.romCommit action slot
  else hostCmd c .operational (fun t =>
    let image := t.mgmt.fwStaged
    let b := imageBank image
    if action ≠ 1 then t.done c .invalidField
    else match slotBank slot with
    | none => t.done c .invalidFirmwareSlot
    | some k =>
      if k = t.sec.bootBank then t.done c .invalidFirmwareSlot
      else if t.mgmt.fwWork.isSome then t.done c .commandSequenceError
      else if b.sequence ≤ (t.bank t.sec.bootBank).sequence then
        (t.modMgmt fun m => { m with fwResult := 2 }).done c .invalidFirmwareImage
      else if t.bankVerifies b = false then
        (t.modMgmt fun m => { m with fwResult := 2 }).done c (.vendor 0xC5)
      else
        (t.startOp c (.firmwareCommit slot)).modMgmt fun m => { m with
          fwWork := some { op := t.host.nextOp, fn := c.fn, bank := k, stage := 2, sectors := 0
                           needed := sectorsFor image, image := image } }) s)

/-- The NOR address of sector `i` of a bank. -/
def bankSector (bank i : Nat) : Nat := 0x200000 + bank * bankBytes + 65536 * i

/-- One step of a commit in a pass of the service loop (R443, R444): a sector erased with its intent word, a
sector programmed, or the bank read back and verified. -/
def State.fwStep (s : State) : State :=
  match s.mgmt.fwWork with
  | none => s
  | some w =>
    if w.stage = 2 then
      if w.sectors < w.needed then
        (s.setBank w.bank {}).modMgmt fun m => { m with
          norIntent := [bankSector w.bank (if w.sectors + 1 = w.needed then 495 else w.sectors)]
          fwWork := some { w with sectors := w.sectors + 1 } }
      else s.modMgmt fun m => { m with
        norIntent := [], fwWork := some { w with stage := 3, sectors := 0 } }
    else if w.stage = 3 then
      if w.sectors < w.needed then s.modMgmt fun m => { m with
        fwWork := some { w with sectors := w.sectors + 1 } }
      else (s.setBank w.bank (imageBank w.image)).modMgmt fun m => { m with
        fwWork := some { w with stage := 4 } }
    else if s.bankVerifies (s.bank w.bank) then
      ((s.modMgmt fun m => { m with fwWork := none, fwResult := 1 }).finish w.op .success).raise 0x53 0x03
    else
      ((s.modMgmt fun m => { m with fwWork := none, fwResult := 2 }).setBank w.bank
        { s.bank w.bank with commit := [] }).finish w.op .firmwareProhibited

end Sys2Proof.Machine
end

