-- ==== Sys2Proof/Machine/Pins.lean ====
section
/-! DEFINITION. Pins and input power: PERST#, ATTN#, PWRDIS, the sideband filters' events, the main switch and
the watchdog (R22, R429, R439-R441, R457-R463). -/

namespace Sys2Proof.Machine

/-- Sideband input `i` (Table 18.6). -/
def State.input (s : State) (i : Nat) : Sideband := tget {} s.mgmt.sideband i

/-- The state with sideband input `i` changed by `f`. -/
def State.modInput (s : State) (i : Nat) (f : Sideband → Sideband) : State :=
  s.modMgmt fun m => { m with sideband := tmod {} m.sideband i f }

/-- An input released: its mask and stuck flag go with it (R440); an owed event stays owed. -/
def State.releaseInput (s : State) (i : Nat) : State :=
  s.modInput i fun x => { level := false, owed := x.owed }

/-! ## PERST# (R22, R294, R460) -/

/-- The link of a port as trained. -/
def State.setLink (s : State) (port speed width : Nat) : State :=
  s.modHost fun h => if port = 0 then { h with p0Speed := speed, p0Width := width }
    else { h with p1Speed := speed, p1Width := width }

/-- True when a link of a port may train to a speed and width (Tables 12.1 and 12.11). -/
def State.linkOk (s : State) (speed width : Nat) : Bool :=
  decide (speed ≤ 5) && (if speed = 0 then width == 0 else
    [1, 2, 4, 8, 16].contains width && decide (width ≤ (if s.host.dual then 8 else 16)))

/-- What the host offers on a port whose PERST# it has deasserted. -/
def State.offerLink (s : State) (port speed width : Nat) : State :=
  s.modHost fun h => { h with offers := tset h.offers port (speed, width) }

/-- The link of a port trains to what the host offers, once the identity reads are done and a bank has booted
(R396, R460). -/
def State.train (s : State) (port : Nat) : State :=
  let o := tget (0, 0) s.host.offers port
  if s.power.on = true ∧ s.sec.booted = true ∧ s.power.identityDone = true ∧ (port = 0 ∨ s.host.dual = true) ∧
      thas s.host.offers port = true ∧ s.linkOk o.1 o.2 = true then s.setLink port o.1 o.2
  else s

/-- PERST_ASSERT (R22, R294): on every configured port a module reset, on one port of two a reset of that
port's functions. PERST# of port 1 does nothing in single mode. -/
def execPerstAssert (port : Nat) (s : State) : Host.Outcome State Fault Refusal :=
  let t := (s.modInput port fun x => { x with level := true }).modHost fun h => { h with
    offers := tdel h.offers port }
  .next (if (s.input port).level = true ∨ (s.power.on = false ∧ s.power.standby = false) then s
  else if s.power.on = false ∨ (port = 1 ∧ s.host.dual = false) then t
  else
    let u := t.setLink port 0 0
    if s.host.dual = false ∨ (s.input (1 - port)).level = true then
      u.moduleReset false (u.stamped 2 { kind := 0x07 })
    else (u.endSessions port).resetFunctions (pfGroup (17 * port)))

/-- PERST_DEASSERT (R440, R460): the input is released, and the link trains to what the host offers, at once or at the
end of the identity reads. -/
def execPerstDeassert (port speed width : Nat) (s : State) : Host.Outcome State Fault Refusal :=
  .next (if s.power.on = false ∧ s.power.standby = false then s
  else ((s.releaseInput port).offerLink port speed width).train port)

/-! ## ATTN# (R440, R441) -/

/-- ATTN_PRESS (R441): a counted press raises event 0x52 and starts the blinking, which a second press
within its 5 s stops. A masked input's presses are ignored. -/
def execAttnPress (s : State) : Host.Outcome State Fault Refusal :=
  .next (if (s.input 2).masked = true ∨ (s.power.on = false ∧ s.power.standby = false) then s
  else ((s.modInput 2 fun x => { x with level := true }).modMgmt fun m => { m with
    attnPresses := m.attnPresses + 1, attnBlink := !m.attnBlink }).raise 0x52 0xC3)

/-- ATTENTION_BLINK_EXPIRE (R441): 5 s have passed. -/
def execAttentionBlinkExpire (s : State) : Host.Outcome State Fault Refusal :=
  .next (s.modMgmt fun m => { m with attnBlink := false })

/-- ATTN_RELEASE (R440). -/
def execAttnRelease (s : State) : Host.Outcome State Fault Refusal := .next (s.releaseInput 2)

/-- SIDEBAND_STUCK (R440, Table 18.6): an input held active past its limit is masked and raises event 0x51
once; that of PWRDIS waits for a ready controller after the release. -/
def execSidebandStuck (input : Nat) (s : State) : Host.Outcome State Fault Refusal :=
  let x := s.input input
  .next (if x.level = false ∨ x.stuck = true then s
  else
    let t := s.modInput input fun y => { y with masked := true, stuck := true, owed := y.owed || input == 3 }
    if input = 3 then t else t.raise 0x51 0xC3)

/-! ## Power (R429, R457-R463) -/

/-- Power removed from every domain but, with `standby`, the always-on one: nothing volatile survives and no
completion is posted (R461, R462, Table 15.6). Without standby power the latches go too (R391, R440). -/
def State.powerDown (s : State) (standby : Bool) : State :=
  let cut := s.mgmt.fwWork.isSome
  let w := (({ s with resets := [] }.moduleWipe false).setLink 0 0 0).setLink 1 0 0
  let t := w.modPower fun p => { p with on := false, standby := standby }
  let u := t.modSec fun x => { x with booted := false, transition := none }
  if standby then u
  else ((u.coldWipe 0 cut).modMgmt fun m => { m with sideband := [] }).modHost fun h => { h with offers := [] }

/-- The main switch closes: the power-up trigger of a cold reset (R459). -/
def State.powerUp (s : State) (cause : Nat) : State :=
  (s.modPower fun p => { p with on := true, standby := true, outOfRange := false }).coldReset cause

/-- PWRDIS_ASSERT (R461): the main switch opens; only the always-on domain stays powered. -/
def execPwrdisAssert (s : State) : Host.Outcome State Fault Refusal :=
  .next (if (s.input 3).level = true ∨ (s.power.on = false ∧ s.power.standby = false) then s
  else
    let t := s.modInput 3 fun x => { x with level := true }
    if s.power.on then t.powerDown true else t)

/-- PWRDIS_RELEASE (R461): the switch closes and the module powers up with cold_cause 0x03, unless the input
voltage is out of range. -/
def execPwrdisRelease (s : State) : Host.Outcome State Fault Refusal :=
  .next (if (s.input 3).level = false then s
  else
    let t := s.releaseInput 3
    if s.power.outOfRange = true ∨ s.power.on = true then t else t.powerUp 0x03)

/-- MAIN_SWITCH_CLOSE (R457, R459): after precharge. -/
def execMainSwitchClose (s : State) : Host.Outcome State Fault Refusal :=
  .next (if s.power.on = true ∨ s.power.outOfRange = true ∨ (s.input 3).level = true then s else s.powerUp 0x01)

/-- The main switch opens on an input out of range (R462). -/
def State.switchOpens (s : State) (standby : Bool) : State :=
  (if s.power.on then s.powerDown standby
   else if standby then s else s.powerDown false).modPower fun p => { p with outOfRange := true }

/-- UNDERVOLTAGE (R462). -/
def execUndervoltage (standby : Bool) (s : State) : Host.Outcome State Fault Refusal :=
  .next (s.switchOpens standby)

/-- OVERVOLTAGE (R462). -/
def execOvervoltage (standby : Bool) (s : State) : Host.Outcome State Fault Refusal :=
  .next (s.switchOpens standby)

/-- INPUT_RECOVERED (R462): the input has stayed within 40-60 V for 100 ms. -/
def execInputRecovered (s : State) : Host.Outcome State Fault Refusal :=
  .next (if s.power.outOfRange = false then s
  else if (s.input 3).level then s.modPower fun p => { p with outOfRange := false, standby := true }
  else s.powerUp 0x01)

/-- POWER_LOSS (R463): every supply is gone. -/
def execPowerLoss (s : State) : Host.Outcome State Fault Refusal :=
  .next ((s.powerDown false).modPower fun p => { p with outOfRange := false })

/-- WATCHDOG_EXPIRY (R429): 3,000 periods without a kick cause a cold reset with cold_cause 0x02. -/
def execWatchdogExpiry (s : State) : Host.Outcome State Fault Refusal :=
  .next (if s.power.on then s.coldReset 0x02 else s)

end Sys2Proof.Machine
end

