-- ==== Sys2Proof/Machine/Power.lean ====
section
/-! DEFINITION. The governor, the thermal limits and region sleep (R416-R426). Watts are in units of 0.01 W, and
within one computation of grants in 1/400 of that, so that every factor of R423 and R425 is exact. -/

namespace Sys2Proof.Machine

/-! ## The effective cap (R421) -/

/-- The host cap; 250 W while a power stage is unreadable (R438). -/
def State.hostCap (s : State) : Nat :=
  if s.mgmt.stageCap then 250
  else if s.host.dual then Nat.min s.host.powerCap0 s.host.powerCap1 else s.host.powerCap0

/-- The cap of the power state in effect: the governor caps of Table 12.10. -/
def psCap (ps : Nat) : Nat := if ps = 1 then 450 else if ps = 2 then 250 else 650

/-- cap_eff and cap_source: the lowest of the three, the first of equal ones (R421, Table 17.5). -/
def State.effectiveCap (s : State) : Nat × Nat :=
  let h := s.hostCap
  let p := psCap s.host.powerState
  let m := if 3 ≤ s.host.powerState ∧ s.permissive = true then 250 else 650
  if h ≤ p ∧ h ≤ m then (h, 0) else if p ≤ m then (p, 1) else (m, 2)

/-! ## Thermal limits (R425, R426) -/

/-- Throttle limit of a sensor in °C (Table 17.4); critical is 10 °C above it and shutdown 20 °C. -/
def throttleLimit (sensor : Nat) : Nat := if sensor < 12 then 95 else if sensor < 16 then 85 else 70

/-- How far, in 0.1 °C from 0 to 100, sensors `lo` to `hi` leave the ceiling of their domain up: 100 at the
throttle limit of the hottest one and below, 0 at critical and above. -/
def headroom (temps : List Int) (lo hi : Nat) : Nat :=
  ((List.range (hi + 1 - lo)).map fun i =>
    let t := temps.getD (lo + i) 0
    (clampInt 0 100 (10 * (throttleLimit (lo + i) + 10 : Int) - t)).toNat).foldl Nat.min 100

/-- A ceiling lowered: floor + (ceiling - floor) × headroom / 100, in 1/400 of 0.01 W. -/
def loweredCeiling (floor ceiling room : Nat) : Nat := 400 * floor + 4 * (ceiling - floor) * room

/-- Highest reading relative to its throttle limit, in 0.1 °C, and its sensor (Table 17.5). -/
def hottestOf (temps : List Int) : Int × Nat :=
  let l := temps.zipIdx.map fun e => (e.1 - 10 * (throttleLimit e.2 : Int), e.2)
  l.foldl (fun m e => if m.1 < e.1 then e else m) (l.headD (0, 0))

/-! ## Grants (R422, R423) -/

/-- The model of Table 17.3 in proportion: (f / 3.0 GHz) × (V / 0.85 V)² at step `s` is `ratio s / ratio 18`, with
V(s) rising by 0.25 V / 18 a step, so that it is 0.85 V at step 18 (R417). -/
def ratio (s : Nat) : Nat := (12 + s) * (216 + 5 * s) * (216 + 5 * s)

/-- What R423 works with: floors and demands of F, D and S in 1/400 of 0.01 W, and k = num / den. -/
structure Apportion where
  floors : List Nat
  demands : List Nat
  num : Nat
  den : Nat
deriving DecidableEq, Repr

/-- A domain's demand in 1/400 of 0.01 W, for a floor and a lowered ceiling in that unit. -/
def demandOf (throttled : Bool) (measured floor ceiling : Nat) : Nat :=
  Nat.max (Nat.min ceiling (if throttled then 500 * measured else 400 * measured)) floor

/-- k of R423: the power available is cap / 1.08 - P_H. -/
def apportion (cap hoist : Nat) (floors demands : List Nat) : Apportion :=
  let base := weightOf floors
  let excess := weightOf demands - base
  let avail : Int := 400 * (2500 * cap - 27 * hoist : Int) - 27 * base
  { floors := floors, demands := demands
    num := if excess = 0 then 1 else (clampInt 0 (27 * excess : Nat) avail).toNat
    den := if excess = 0 then 1 else 27 * excess }

/-- The grant of domain `i`, in 1/400 of 0.01 W, times `den`. -/
def Apportion.grant (a : Apportion) (i : Nat) : Nat :=
  a.floors.getD i 0 * a.den + a.num * (a.demands.getD i 0 - a.floors.getD i 0)

/-- A grant in whole watts. -/
def Apportion.watts (a : Apportion) (i : Nat) : Nat := a.grant i / (40000 * a.den)

/-- Regions that are awake. -/
def State.awakeRegions (s : State) : List Nat :=
  (List.range 8).filter fun r => (s.region r).st == .active

/-- A region's own demand in 0.01 W: 37.5 W where it was asleep or waking in the period. -/
def State.ownDemand (s : State) (t : Telemetry) (r : Nat) : Nat :=
  if (s.region r).st = .retired then 0
  else if (s.region r).sleptPeriod then 3750 else t.regionCw.getD r 0

/-- Seam stacks in service. -/
def State.seamCount (s : State) : Nat := ((List.range 32).filter fun k => (s.stack k).st != 2).length

/-- The grants of a period. -/
def State.grants (s : State) (t : Telemetry) : Apportion :=
  let fast := s.power.fastActive
  let fF := 900 * s.awakeRegions.length
  let fS := 100 * s.seamCount
  let own := weightOf ((List.range 8).map (s.ownDemand t))
  apportion s.effectiveCap.1 t.hoistCw [400 * fF, 400 * 4000, 400 * fS]
    [demandOf (fast || s.power.fThrottled) own (400 * fF) (loweredCeiling fF 30000 (headroom t.temps 0 9)),
     demandOf (fast || s.power.dThrottled) t.dramCw (400 * 4000)
       (loweredCeiling 4000 12000 (headroom t.temps 12 15)),
     demandOf (fast || s.power.sThrottled) t.seamCw (400 * fS)
       (loweredCeiling fS 9600 (headroom t.temps 16 47))]

/-- True when region `r` at step `k` draws no more than its share of the grant of F: P(k) ≤ share. -/
def State.stepFits (s : State) (t : Telemetry) (a : Apportion) (r k : Nat) : Bool :=
  let all := weightOf (s.awakeRegions.map (s.ownDemand t))
  let g := s.region r
  let now := if g.sleptPeriod then 18 else g.step
  decide (400 * s.ownDemand t r * ratio k * a.den * all ≤ a.grant 0 * s.ownDemand t r * ratio now)

/-- The highest step of region `r` that its share allows, 0 if none does. -/
def State.stepFor (s : State) (t : Telemetry) (a : Apportion) (r : Nat) : Nat :=
  (((List.range (Nat.min (s.region r).maxStep 18 + 1)).filter (s.stepFits t a r)).getLast?).getD 0

/-- A region's share of the grant of F, in whole watts. -/
def State.shareOf (s : State) (t : Telemetry) (a : Apportion) (r : Nat) : Nat :=
  let all := weightOf (s.awakeRegions.map (s.ownDemand t))
  a.grant 0 * s.ownDemand t r / (40000 * a.den * all)

/-- The DRAM limit in MB/s: (grant - 40 W) / 16.67 W per TB/s. -/
def Apportion.dram (a : Apportion) : Nat :=
  (a.grant 1 - 1600000 * a.den) * 100000000 / (66680000 * a.den)

/-- The limit of each of `n` seam stacks in MB/s: (grant / n - 1.0 W) / 0.1 W per GB/s. -/
def Apportion.seam (a : Apportion) (n : Nat) : Nat :=
  if n = 0 then 0 else (a.grant 2 - 40000 * n * a.den) / (4 * n * a.den)

/-- Awake regions at the steps that the grants give; a region's sleep of the period is counted anew. -/
def State.setSteps (s : State) (t : Telemetry) (a : Apportion) : State :=
  (List.range 8).foldl (fun u r => u.modRegion r fun g =>
    if g.st = .active then { g with
      step := s.stepFor t a r, shareW := s.shareOf t a r, halved := false, sleptPeriod := false }
    else { g with halved := false, sleptPeriod := g.st == .sleep || g.st == .waking }) s

/-- True when an awake region's step is below its maximum. -/
def State.belowMaxStep (s : State) : Bool :=
  s.awakeRegions.any fun r => decide ((s.region r).step < Nat.min (s.region r).maxStep 18)

/-- The governor's pass (R416, R421-R425). -/
def State.govern (s : State) (t : Telemetry) : State :=
  let a := s.grants t
  let u := s.setSteps t a
  let hot := hottestOf t.temps
  u.modPower fun p => { p with
    capEff := s.effectiveCap.1, capSource := s.effectiveCap.2, fastActive := false
    thermalActive := decide (headroom t.temps 0 9 < 100 ∨ headroom t.temps 12 15 < 100 ∨
      headroom t.temps 16 47 < 100)
    throttled := decide (a.num < a.den)
    throttleCount := if a.num < a.den then p.throttleCount + 1 else p.throttleCount
    periodOverruns := capNat 0xFFFF (p.periodOverruns + b2n t.overrun)
    inputW := t.inputDw / 10, input10mv := t.inputMv10, inputDw := t.inputDw
    grantF := a.watts 0, grantD := a.watts 1, grantS := a.watts 2
    dLimit := a.dram, sLimit := a.seam s.seamCount
    fThrottled := u.belowMaxStep, dThrottled := decide (a.grant 1 < 4800000 * a.den)
    sThrottled := decide (a.grant 2 < 3840000 * a.den)
    hottest := (clampInt 0 255 (hot.1 / 10 + 95)).toNat, sensor := hot.2, tempWarn := decide (0 < hot.1)
    temps := t.temps, traffic := t.traffic }

/-! ## Region sleep (R419, R420) -/

/-- True when a bench of region `r` is RUNNING or WAITING. -/
def State.regionRuns (s : State) (r : Nat) : Bool :=
  (List.range 5).any fun i =>
    (s.bench (5 * r + i)).seq.st == .running || (s.bench (5 * r + i)).seq.st == .waiting

/-- True when a move reads or writes the T1 slice of region `r`. -/
def State.sliceMoves (s : State) (r : Nat) : Bool :=
  (s.die (dieOf r)).slots.any fun x => x.2.st == 2 && (x.2.copyTier == 1 || x.2.destTier == 1) &&
    4 * dieOf r + x.2.slice == r

/-- True when region `r` has been idle for more than sleep_idle ticks: tick 0 is the first edge after the last
activity. -/
def State.idleLong (s : State) (r : Nat) : Bool :=
  match (s.region r).idleSince with
  | none => false
  | some a => decide (a + 1 + (s.region r).sleepIdle ≤ s.dieNow (dieOf r))

/-- REGION_SLEEP_ENTER (R419): an awake region whose conditions have held for sleep_idle ticks begins its entry
into SLEEP; its PLL stops 0.5 µs later, at the second tick. -/
def execRegionSleepEnter (region : Nat) (s : State) : Host.Outcome State Fault Refusal :=
  let g := s.region region
  .next (if g.st ≠ .active ∨ 0 < g.entering ∨ g.sleepIdle = 0xFFFF ∨ s.regionRuns region = true ∨
      g.haul.reqs ≠ [] ∨ s.sliceMoves region = true ∨ s.idleLong region = false then s
  else s.modRegion region fun x => { x with entering := 2 })

/-- REGION_WAKE (R17, R420): a wake source for the region: its entry into sleep is aborted, or it begins to
wake. -/
def execRegionWake (region : Nat) (s : State) : Host.Outcome State Fault Refusal := .next (s.wake region)

/-! ## The fast limiter (R424) -/

/-- FAST_LIMITER_ENGAGE (R424): input above 1.10 × cap_eff for 2 µs. The clock of every awake region is divided by
2 and the D and S limits are halved until the next period. -/
def execFastLimiterEngage (s : State) : Host.Outcome State Fault Refusal :=
  .next (if s.power.on = false ∨ s.power.fastActive = true then s
  else
    let t := s.awakeRegions.foldl (fun u r => u.modRegion r fun g => { g with halved := true }) s
    t.modPower fun p => { p with
      fastActive := true, fastCount := p.fastCount + 1, dLimit := p.dLimit / 2, sLimit := p.sLimit / 2 })

/-! ## Thermal shutdown (R426) -/

/-- THERMAL_SHUTDOWN (R426): a sensor at its shutdown limit causes a module reset, after which every region is
held asleep and the flash idle. CSTS.CFS is set (R25). -/
def execThermalShutdown (sensor : Nat) (s : State) : Host.Outcome State Fault Refusal :=
  .next (if s.power.on = false ∨ s.power.shutdown = true ∨ 48 ≤ sensor then s
  else (s.moduleReset true (s.stamped 2 { kind := Config.resetKind 0 % 256 })).modPower fun p =>
    { p with shutdown := true })

/-- True when every sensor reads at least 10 °C below its critical limit, its throttle limit. -/
def State.cool (s : State) : Bool :=
  s.power.temps.zipIdx.all fun e => decide (e.1 ≤ 10 * (throttleLimit e.2 : Int))

/-- THERMAL_SHUTDOWN_EXIT (R426): 30 s have passed with every sensor 10 °C below its critical limit. Mount
follows. -/
def execThermalShutdownExit (s : State) : Host.Outcome State Fault Refusal :=
  .next (if s.power.shutdown = true ∧ s.cool = true then s.modPower fun p => { p with shutdown := false } else s)

/-! ## The service loop (R428, R429, R436-R438, R448, R449) -/

/-- Corrected FEC symbols of the period reach the monitors and the lane retirement rule (R326, Table 18.2). -/
def State.takeSymbols (s : State) (l : List Nat) : State :=
  l.zipIdx.foldl (fun t e =>
    let port := e.2 / 4
    let lane := e.2 % 4
    let run := if 65536 < e.1 then tget 0 (t.port port).symRuns lane + 1 else 0
    let u := (t.observe 0x0A e.2 (e.1 : Int)).modPort port fun p => { p with
      symRuns := tset p.symRuns lane run, fec := listMod p.fec lane fun v => v + BitVec.ofNat 64 e.1 }
    if 3 ≤ run then u.retireLane port lane else u) s

/-- The extent in slot `j`, whose copy lies in a slice due for retirement, moves out (R167, R174): its pin is lifted and
it moves to the tier below, or its clean copy is dropped; without room there it stays, to be tried again. -/
def State.moveOut (s : State) (d j : Nat) : State :=
  let e := s.extent d j
  let free := s.modExtent d j fun x => { x with pinned := false, pinOnCommit := false }
  if e.st ≠ 1 ∨ s.queuedTier d j ≠ 0 then s
  else if e.homeTier = 2 then
    (if e.copyDirty = [] then free.dropCopy d j else free.requestMove d j 2 4)
  else
    match s.room s.roomFuel d 2 0 e.length 4 with
    | none => s
    | some t => (t.modExtent d j fun x => { x with pinned := false, pinOnCommit := false }).requestMove d j 2 4

/-- A region due for retirement that no program is bound to leaves service once its slice holds no extent and no move
touches it; until then its extents move out, tried again at each management period (R33, R167). -/
def State.retireDue (s : State) (r : Nat) : State :=
  let g := s.region r
  if g.retirePending = false ∨ g.st = .retired ∨ g.st = .reset ∨
      ((List.range 5).any fun i => (s.bench (5 * r + i)).bind.isSome) = true then s
  else if s.sliceExtents r = [] ∧ s.sliceMoves r = false then s.retireRegion r 0x01
  else (s.sliceExtents r).foldl (fun t x => t.moveOut (dieOf r) x.1) s

/-- Task 4: pending retirements of units that no program uses take effect (R33). -/
def State.retireFree (s : State) : State :=
  let s1 := (List.range 40).foldl (fun t b =>
    if (t.bench b).bind.isNone then t.applyRetirements b 0x01 else t) s
  let s2 := (List.range 8).foldl (fun t r => t.retireGroups r 0x01) s1
  (List.range 8).foldl State.retireDue s2

/-- An identity read of entry `e` that is due, with its result (R436-R438); 64 + k is the EEPROM of stack k, which
is rewritten from the as-built copy. -/
def State.identityRead (s : State) (e st : Nat) : State :=
  if !s.mgmt.identityDue.contains (if 64 ≤ e then e - 63 else e) then s
  else if 64 ≤ e then (if st = 0 then s else s.raise 0x50 0xC3)
  else
    let s1 := s.modMgmt fun m => { m with identities := tset m.identities e st }
    if st = 0 then s1
    else
      let s2 := s1.raise 0x50 0xC3
      if 1 ≤ e ∧ e ≤ 32 then s2.stackOut (e - 1) 0x04
      else if 33 ≤ e ∧ e ≤ 36 ∧ st ≠ 3 then
        let d := (e - 33) / 2
        (s2.modDie d fun x => { x with held := true }).trigger 2 d
          (s2.stamped d { kind := Config.resetKind 2 % 256 })
      else if 37 ≤ e ∧ e ≤ 52 ∧ st ≠ 3 then s2.modMgmt fun m => { m with stageCap := true }
      else s2

/-- Task 5: the identity reads made in the pass; those of a cold reset are done once none is due, and the ports whose
PERST# is deasserted train (R460). -/
def State.takeIdentities (s : State) (l : List (Nat × Nat)) : State :=
  let s1 := l.foldl (fun t e => t.identityRead e.1 e.2) s
  let s2 := s1.modMgmt fun m => { m with
    identityDue := m.identityDue.filter fun i => !(l.any fun e => e.1 == i) }
  if s2.mgmt.identityDue.isEmpty && !s2.power.identityDone then
    ((s2.modPower fun p => { p with identityDone := true }).train 0).train 1
  else s2

/-- Entry `i` made due for an identity read. -/
def State.identityAgain (s : State) (i : Nat) : State :=
  s.modMgmt fun m => { m with
    identityDue := if m.identityDue.contains i then m.identityDue else m.identityDue ++ [i] }

/-- Task 2: a stage that has not answered in 3 passes is unreadable (R448); one that restarted is read again
(R436). -/
def State.takeStages (s : State) (silent restarted : List Nat) : State :=
  let s1 := (List.range 16).foldl (fun t i =>
    let n := if silent.contains i then tget 0 t.mgmt.stageSilent i + 1 else 0
    let u := t.modMgmt fun m => { m with stageSilent := tset m.stageSilent i (capNat 3 n) }
    if n = 3 ∧ tget 0 t.mgmt.stageSilent i = 2 then
      (u.modMgmt fun m => { m with
        stageCap := true, identities := tset m.identities (37 + i) 2 }).raise 0x50 0xC3
    else u) s
  restarted.foldl (fun t i => if i < 16 then t.identityAgain (37 + i) else t) s1

/-- The cold plate is read every 3,000 periods (R436). -/
def State.plateTurn (s : State) : State :=
  if 2999 ≤ s.mgmt.plateAge then (s.modMgmt fun m => { m with plateAge := 0 }).identityAgain 53
  else s.modMgmt fun m => { m with plateAge := m.plateAge + 1 }

/-- MANAGEMENT_PERIOD (R416, R428, R373): one pass of the service loop, on the telemetry of the period that ended. Without
main power it only kicks the watchdog; a halted core does nothing. -/
def execManagementPeriod (t : Telemetry) (s : State) : Host.Outcome State Fault Refusal :=
  .next (if s.mgmt.halted = true ∨ (s.power.on = false ∧ s.power.standby = false) then s
  else if s.power.on = false then s.modMgmt fun m => { m with kickAge := 0 }
  else
    let s1 := ((s.govern t).takeStages t.silentStages t.restartedStages).takeSymbols t.fecSymbols
    let s2 := (s1.retireFree.plateTurn.takeIdentities t.identityReads).fwStep
    (s2.modMgmt fun m => { m with
      kickAge := 0, uptime := m.uptime + 1 + b2n t.overrun
      dieNames := m.dieNames.map fun e => (e.1, { e.2 with words := [] }) }).settle)

/-- SEAM_LINK_RETRAIN (R436): the stack's identity becomes due for a read. -/
def execSeamLinkRetrain (stack : Nat) (s : State) : Host.Outcome State Fault Refusal :=
  .next (if s.power.on then s.identityAgain (1 + stack) else s)

/-- UPTIME_WRITE (R449): every 10,800,000 periods of up-time the count is kept in the NOR store. -/
def execUptimeWrite (s : State) : Host.Outcome State Fault Refusal :=
  .next (if s.mgmt.uptimeSaved + 10800000 ≤ s.mgmt.uptime then
    s.modMgmt fun m => { m with uptimeSaved := m.uptime } else s)

/-- ASSAY_WINDOW_CLOSE (R430): at the tick that ends a monitor's window its snapshot is written. -/
def execAssayWindowClose (monitor : Nat) (s : State) : Host.Outcome State Fault Refusal :=
  .next (s.modMgmt fun m => { m with
    monitors := tmod {} m.monitors monitor fun x => x.roll monitor s.now })

end Sys2Proof.Machine
end

