-- ==== Sys2Proof/Machine/Protect.lean ====
section
/-! DEFINITION. Scrubbing and DRAM erasure mode (R368-R379). -/

namespace Sys2Proof.Machine

/-! ## Erasure mode (R373, R374) -/

/-- A journal entry about core die `d` of a DRAM stack. -/
def dieEntry (kind stack d : Nat) : JEntry :=
  { kind := kind, memory := 0x07, detail := stack + 16 * d }

/-- DRAM_ERASURE_MODE_ENTER (R373): a core die that meets the criteria; a stack has at most one die in erasure
mode. -/
def execDramErasureModeEnter (stack coreDie : Nat) (s : State) : Host.Outcome State Fault Refusal :=
  .next (if thas s.mgmt.erasure stack = true ∨ s.dieCriteria stack coreDie = false then s
  else
    let t := s.modMgmt fun m => { m with erasure := tset m.erasure stack coreDie }
    (t.journal (t.stamped (stack / 2) (dieEntry 0x0D stack coreDie))).repair 0x0B 0x01 stack
      (stack + 16 * coreDie))

/-- SECOND_DIE_ERASURE_CRITERIA (R374): a second die that meets the criteria is journalled, recorded and
marked once per stack; nothing is erased. -/
def execSecondDieErasureCriteria (stack coreDie : Nat) (s : State) : Host.Outcome State Fault Refusal :=
  .next (if thas s.mgmt.erasure stack = false ∨ tget 0 s.mgmt.erasure stack = coreDie ∨
      thas s.mgmt.secondDie stack = true ∨ s.dieCriteria stack coreDie = false then s
  else
    let t := s.modMgmt fun m => { m with secondDie := tset m.secondDie stack coreDie }
    (t.journal (t.stamped (stack / 2) (dieEntry 0x0F stack coreDie))).repair 0x12 0x01 stack
      (stack + 16 * coreDie))

/-! ## Scrub reads (R368-R379) -/

/-- The region that holds a bench or slice memory of Table 15.8; none for the others. -/
def scrubRegion (memory place : Nat) : Option Nat :=
  if memory = 2 then some (place % 8) else if memory ≤ 6 then some (regionOf place) else none

/-- True when a scrub can read there: the module is powered, and a sleeping region waits for its wake (R378). -/
def State.scrubbable (s : State) (memory place : Nat) : Bool :=
  decide (1 ≤ memory) && s.power.on &&
    match scrubRegion memory place with
    | some r => (s.region r).st == .active
    | none => true

/-- The DRAM stack of the codeword at `a` of face die `d`: that of its frame where `a` is a data-page address
(bit 63 set, R470), otherwise that of the tensor-space address. -/
def scrubStack (d a : Nat) : Nat := if 2 ^ 63 ≤ a then 2 * d + a / 65536 % 2 else stackAt a

/-- True when the triggered pass that runs covers a memory (Table 15.3). -/
def State.passCovers (s : State) (memory place a : Nat) : Bool :=
  let t := s.mgmt.scrubPass.1
  let k := s.mgmt.scrubPass.2
  s.mgmt.scrubBusy &&
    ((t == 1 && memory == 1 && (k == 0xF || k == regionOf place)) ||
     (t == 2 && memory == 2 && (k == 0xF || k == place)) ||
     (t == 3 && memory == 7 && (k == 0xF || k == scrubStack place a)) ||
     (t == 4 && decide (8 ≤ memory)))

/-- The weights of two errors in one word together. -/
def addWeights : List Nat → List Nat → List Nat
  | a :: as, b :: bs => (a + b) :: addWeights as bs
  | [], bs => bs
  | as, [] => as

/-- The error that the word already holds. -/
def State.heldWeights (s : State) (memory place a : Nat) : List Nat :=
  ((s.mgmt.planted.find? fun e => e.1 == memory && e.2.1 == place && e.2.2.1 == a).map (·.2.2.2)).getD []

/-- Distinct passes that must correct in a row before it qualifies: 2 in DRAM, 3 elsewhere (Table 15.2). -/
def passesNeeded (memory : Nat) : Nat := if memory = 7 then 2 else 3

/-- The row of a word and the item that holds it (Table 15.2, R470). -/
def rowKey (memory place a : Nat) : Nat × Nat :=
  if memory = 7 then (scrubStack place a, a / 8192) else (place, a / 1024)

/-- A failing row replaced: the privileged memories' rows are recorded only. -/
def State.remapRow (s : State) (memory place a cause : Nat) : State :=
  if memory = 1 then s.remapT0 place cause a
  else if memory = 2 then s.remapT1 place cause a
  else if memory = 7 then s.repairDram (scrubStack place a) cause (a / 8192 * 8192)
  else if 8 ≤ memory then s.repair 0x0C cause memory a
  else s

/-- A corrected word counts towards its row in its pass; a row that qualifies is remapped (R377). -/
def State.countRow (s : State) (memory place a pass : Nat) (triggered : Bool) : State :=
  let k := rowKey memory place a
  let mine := fun e : Nat × Nat × Nat × List Nat => e.1 == memory && e.2.1 == k.1 && e.2.2.1 == k.2
  let seen := ((s.mgmt.rowHits.find? mine).map (·.2.2.2)).getD []
  let now := if seen.contains pass then seen else pass :: seen
  let rest := s.mgmt.rowHits.filter fun e => !mine e
  if 3 ≤ memory ∧ memory ≤ 6 then s
  else if now.length < passesNeeded memory then
    s.modMgmt fun m => { m with rowHits := rest ++ [(memory, k.1, k.2, now)] }
  else
    (s.modMgmt fun m => { m with
      rowHits := rest, scrubRemap := if triggered then m.scrubRemap + 1 else m.scrubRemap }).remapRow memory place
        a 0x01

/-- A word corrected by a scrub: written back and counted. -/
def State.scrubCorrected (s : State) (memory place a : Nat) (trial triggered : Bool) : State :=
  let p := if memory = 1 then place else 0
  (s.dropFault memory p a).modMgmt fun m => { m with
    memCorr := if memory = 7 then m.memCorr else m.memCorr + 1
    memDcorr := if memory = 7 then m.memDcorr + 1 else m.memDcorr
    memTrials := if trial then m.memTrials + 1 else m.memTrials
    scrubCorr := if triggered then m.scrubCorr + 1 else m.scrubCorr
    scrubTrial := if triggered && trial then m.scrubTrial + 1 else m.scrubTrial }

/-- An uncorrectable word found by a scrub (R368, R376): a reset at the scope of Table 15.1, the management core
halted, or the DRAM codeword poisoned; a full poison table resets the face die. -/
def State.scrubFailed (s : State) (memory place a : Nat) (triggered : Bool) : State :=
  let t := s.modMgmt fun m => { m with
    scrubUncorr := if triggered then m.scrubUncorr + 1 else m.scrubUncorr }
  let e : JEntry := { kind := 0x01, memory := memory, address := if memory ≤ 2 then addrField a else 0 }
  if memory = 7 then
    let d := scrubStack place a / 2
    if 4096 ≤ (t.die d).poison.length ∧ (t.die d).poison.contains (a / 256) = false then
      t.trigger 2 d (t.stamped d { kind := 0x02, memory := 0x07, address := addrField a
                                   detail := scrubStack place a + 16 * ((t.erasedOf (scrubStack place a)).getD 0xF)
                                   flags := t.testFlag 7 0 a })
    else (t.modMgmt fun m => { m with
        scrubRemap := if triggered && !(t.die d).poison.contains (a / 256) then m.scrubRemap + 1
          else m.scrubRemap }).poisonFound d (scrubStack place a) a
  else if memory = 2 then t.sramError place 0x02 0 a 0xFF
  else if memory ≤ 6 then t.sramError (regionOf place) memory place (if memory = 1 then a else 0) place
  else if memory = 8 then t.trigger 2 (place % 2) (t.stamped (place % 2) e)
  else if memory = 0x0C then t.modMgmt fun m => { m with halted := true }
  else (t.remapFor e).moduleReset true (t.stamped 2 e)

/-- The contents of a word that decoded wrongly become free values: of T0, and of an extent's copy in the
tier that was read. -/
def State.scrambleWord (s : State) (memory place a : Nat) : State :=
  let t := (s.dropFault memory (if memory = 1 then place else 0) a).modMgmt fun m =>
    { m with eccDraws := m.eccDraws + 1 }
  let x := s.extent (addrDie a) (addrSlot a)
  if memory = 1 ∨ ((memory = 2 ∨ memory = 7) ∧ a < 2 ^ 48 ∧ (x.st = 1 ∨ x.st = 2) ∧
      tierMemory (x.servedFrom (addrTile a)) = memory) then
    t.scramble memory (if memory = 1 then place else 0) a (drawOf 63 s.mgmt.eccDraws)
  else t

/-- Symbols that a correction outside the erased core die repaired. -/
def State.correctedWeight (s : State) (memory place a : Nat) (w : List Nat) : Nat :=
  match (if memory = 7 then s.erasedOf (scrubStack place a) else none) with
  | some d => weightOf w - w.getD d 0
  | none => weightOf w

/-- SCRUB_READ (R378): the word at `addr` of a memory read in a scrub pass and acted on under R368 to R377. -/
def execScrubRead (memory place addr pass : Nat) (triggered : Bool) (errors : List Nat) (s : State) :
    Host.Outcome State Fault Refusal :=
  let a := addr / wordBytes memory * wordBytes memory
  let w := addWeights (s.heldWeights memory (if memory = 1 then place else 0) a) errors
  .next (if s.scrubbable memory place = false ∨ (triggered = true ∧ s.passCovers memory place a = false) then s
  else
    let t := if triggered then s.modMgmt fun m => { m with scrubWords := m.scrubWords + 1 } else s
    let erased := if memory = 7 then s.erasedOf (scrubStack place a) else none
    match decodeWord memory erased w with
    | .clean => t
    | .corrected trial =>
      let u := (t.scrubCorrected memory place a trial triggered).nameDies (scrubStack place a) a
        (if memory = 7 then diesNamed erased trial w else [])
      if memory = 7 ∧ s.correctedWeight memory place a w ≤ 4 then u
      else u.countRow memory place a pass triggered
    | .uncorrectable => (t.scrubFailed memory place a triggered).settle
    | .beyond =>
      let k := Config.beyondCode s.mgmt.eccDraws (weightOf w) % 3
      if k = 0 then
        ((t.modMgmt fun m => { m with eccDraws := m.eccDraws + 1 }).scrubFailed memory place a triggered).settle
      else
        let u := t.scrambleWord memory place a
        if k = 1 then (u.scrubCorrected memory place a false triggered).countRow memory place a pass triggered
        else u)

/-- SCRUB_PASS_DONE (R379): the triggered pass sets done and makes its journal entry. -/
def execScrubPassDone (s : State) : Host.Outcome State Fault Refusal :=
  let us := (s.now - s.mgmt.scrubSince) / 3
  .next (if s.mgmt.scrubBusy = false then s
  else
    (s.modMgmt fun m => { m with
      scrubBusy := false, scrubDone := true, scrubTime := BitVec.ofNat 64 us }).journal
      (s.stamped 2 { kind := 0x0E, duration := us, count := s.mgmt.scrubUncorr.toNat }))

end Sys2Proof.Machine
end

