-- ==== Sys2Proof/Machine/Logs.lean ====
section
/-! DEFINITION. The log pages (R283, R284, R315, R367, R391, R434, R437, R450): each as its length and its byte at
an offset. -/

namespace Sys2Proof.Machine

/-! ## Pages as fields -/

/-- A field of a page: offset, size in bytes and its little-endian value. -/
abbrev PageField := Nat × Nat × Nat

/-- The byte at offset `o` of a page made of fields; what no field covers is zero. -/
def pageByte (l : List PageField) (o : Nat) : Byte :=
  match l.find? fun f => decide (f.1 ≤ o) && decide (o < f.1 + f.2.1) with
  | none => 0
  | some f => BitVec.ofNat 8 (f.2.2 / 256 ^ (o - f.1))

/-- A signed value in a field of `n` bytes. -/
def signedField (n : Nat) (v : Int) : Nat := wrapNat (8 * n) v

/-- A text as a little-endian number of `n` bytes, padded with spaces. -/
def textField (n : Nat) (t : String) : Nat :=
  ofLeBytes (((t.toList.map fun c => BitVec.ofNat 8 c.toNat) ++ List.replicate n 0x20#8).take n)

/-- A log page: its length and its bytes. -/
structure LogPage where
  len : Nat
  byte : Nat → Byte

/-! ## The part (R1, R3) -/

/-- The letter of a grade. -/
def Grade.letter (g : Grade) : String := match g with | .A => "A" | .B => "B" | .C => "C"

/-- The part number (R1). -/
def Mfg.partNumber (m : Mfg) : String :=
  (if m.cap128 then "DV-BLM-128-" else "DV-BLM-64-") ++ m.grade.letter

/-! ## SMART / Health Information (R284, R426) -/

/-- Critical Warning: spare below 10 %, a sensor above its throttle limit, reliability degraded, read-only end of
life. -/
def State.criticalWarning (s : State) : Nat :=
  b2n (s.flash.sparePct < 10 && s.flash.mounted) + 2 * b2n s.power.tempWarn +
    4 * b2n ((s.flash.seam.any fun e => e.2.rebuilding) || s.flash.everMarked ||
      !s.mgmt.secondDie.isEmpty) + 8 * b2n s.flash.readOnly

/-- Composite Temperature in kelvin: max(T - T_throttle) + 95 °C. -/
def State.compositeK (s : State) : Nat := (((hottestOf s.power.temps).1 + 950 + 2730) / 10).toNat

/-- SMART with the Media and Data Integrity Errors count (R278), at the offsets that NVMe gives these fields (PRESUMED, notes/assumptions/24.md); the rest is free. -/
def State.smartLog (s : State) : LogPage :=
  { len := 512
    byte := fun o =>
      if o < 6 then pageByte [(0, 1, s.criticalWarning), (1, 2, s.compositeK), (3, 1, s.flash.sparePct),
        (4, 1, 10), (5, 1, s.percentUsed)] o
      else if 160 ≤ o ∧ o < 176 then pageByte [(160, 16, s.flash.mediaErrors)] o
      else Config.standardLog s.host.draws 2 o }

/-! ## 0xC0 Erase Counters (R283, Tables 11.5 and 11.6) -/

/-- The header of log 0xC0. -/
def State.eraseHeader (s : State) : List PageField :=
  let worn := s.wornBlocks.map fun e => e.2.wear
  let lowest := if worn.length < s.poolBlocks then 0 else worn.foldl Nat.min (worn.headD 0)
  [(0, 2, 1), (2, 1, s.diesPerStack), (3, 1, 4), (4, 2, 4096), (8, 4, s.blockCount), (0xC, 2, 3000),
   (0xE, 2, 50000), (0x10, 4, s.wearMean / 15), (0x14, 4, worn.foldl Nat.max 0 / 15), (0x18, 4, lowest / 15),
   (0x1C, 4, s.flash.grownBad),
   (0x20, 4, (s.flash.seam.map fun e => e.2.dieRetired.length).foldl (· + ·) 0),
   (0x24, 4, ((List.range 32).filter s.stackGone).length)] ++
  s.flash.events.zipIdx.flatMap fun e =>
    let a := 0x100 + 16 * e.2
    [(a, 1, e.1.1), (a + 1, 1, e.1.2.1), (a + 2, 1, e.1.2.2.1), (a + 8, 8, e.1.2.2.2)]

/-- The entry of physical block `b` (Table 11.6). -/
def State.eraseEntry (s : State) (b : Nat) : Nat :=
  let x := s.blk b
  capNat 65535 x.pslcErases + 2 ^ 16 * capNat 4095 x.qlcErases + 2 ^ 28 * s.blockState b + 2 ^ 30 * s.roleOf b

/-- Log 0xC0. -/
def State.eraseLog (s : State) : LogPage :=
  { len := 512 + 4 * s.blockCount
    byte := fun o =>
      if o < 512 then pageByte s.eraseHeader o
      else BitVec.ofNat 8 (s.eraseEntry ((o - 512) / 4) / 256 ^ ((o - 512) % 4)) }

/-! ## 0xC1 Assay Snapshots (R434, Table 18.3) -/

/-- The fields of a snapshot. -/
def Snapshot.fields (x : Snapshot) : List PageField :=
  [(0, 1, x.monitor), (1, 1, x.source), (2, 1, x.inst), (3, 1, b2n x.saturated + 2 * b2n x.changed),
   (4, 4, x.windowTicks), (8, 8, x.windowStart), (0x10, 4, x.count), (0x14, 4, signedField 4 x.min),
   (0x18, 4, signedField 4 x.max), (0x20, 8, signedField 8 x.sum)] ++
  x.bins.zipIdx.map fun e => (0x40 + 4 * e.2, 4, e.1)

/-- Log 0xC1: four slots a monitor, newest first. -/
def State.assayLog (s : State) : LogPage :=
  { len := 49216
    byte := fun o =>
      if o < 64 then pageByte [(0, 2, 1), (8, 8, s.now)] o
      else
        let k := (o - 64) / 192
        match (tget {} s.mgmt.monitors (k / 4)).ring[k % 4]? with
        | none => 0
        | some x => pageByte x.fields ((o - 64) % 192) }

/-! ## 0xC2 Recovery Journal (R391, Tables 15.7 and 15.8) -/

/-- The fields of a Recovery Journal entry. -/
def JEntry.fields (e : JEntry) : List PageField :=
  [(0, 8, e.seq), (8, 8, e.kclk.toNat), (0x10, 1, e.stampDie), (0x11, 1, e.kind), (0x12, 1, e.scope),
   (0x13, 1, e.flags), (0x14, 1, e.memory), (0x15, 1, e.region), (0x16, 1, e.bench), (0x17, 1, e.detail),
   (0x18, 8, e.address.toNat), (0x20, 4, e.ended), (0x24, 4, e.lost), (0x28, 4, e.fallen),
   (0x2C, 4, e.unloaded), (0x30, 4, e.duration), (0x34, 4, e.count)]

/-- Log 0xC2. -/
def State.journalLog (s : State) : LogPage :=
  { len := 16448
    byte := fun o =>
      if o < 64 then pageByte [(0, 2, 1), (2, 2, s.mgmt.journal.length), (8, 8, s.mgmt.journalTotal),
        (0x10, 1, s.mgmt.coldCause)] o
      else
        match s.mgmt.journal[(o - 64) / 64]? with
        | none => 0
        | some e => pageByte e.fields ((o - 64) % 64) }

/-! ## 0xC3 Identity Inventory (R437, Table 18.5) -/

/-- Kind and index of entry `e`, none for entries 54-63. -/
def identityKind (e : Nat) : Option (Nat × Nat) :=
  if e = 0 then some (1, 0)
  else if e ≤ 32 then some (2, e - 1)
  else if e ≤ 36 then some (3, e - 33)
  else if e ≤ 52 then some (4, e - 37)
  else if e = 53 then some (5, 0) else none

/-- sb_stuck: inputs masked under R440. -/
def State.stuckMask (s : State) : Nat :=
  (List.range 4).foldl (fun v i => v + 2 ^ i * b2n (tget {} s.mgmt.sideband i).masked) 0

/-- Log 0xC3. -/
def State.identityLog (s : State) : LogPage :=
  { len := 4224
    byte := fun o =>
      if o < 128 then pageByte [(0, 2, 1), (8, 8, s.mfg.serial.toNat), (16, 16, textField 16 s.mfg.partNumber),
        (32, 1, textField 1 s.mfg.grade.letter), (33, 1, if s.mfg.cap128 then 128 else 64),
        (34, 2, s.arraysInService), (36, 1, s.stuckMask), (40, 8, s.mgmt.attnPresses)] o
      else
        let e := (o - 128) / 64
        let i := (o - 128) % 64
        match identityKind e with
        | none => 0
        | some (kind, index) =>
          let st := tget 0 s.mgmt.identities e
          if i < 4 then pageByte [(0, 1, kind), (1, 1, index), (2, 1, st)] i
          else Config.identityByte e st i }

/-! ## 0xC4 Repair and Retirement (R450, Table 18.8) -/

/-- The fields of an entry. -/
def RepairEntry.fields (e : RepairEntry) : List PageField :=
  [(0, 8, e.seq), (8, 8, e.uptime), (0x10, 1, e.kind), (0x11, 1, e.cause), (0x14, 4, e.item),
   (0x18, 8, e.detail)]

/-- Log 0xC4. -/
def State.repairLog (s : State) : LogPage :=
  { len := 32832
    byte := fun o =>
      if o < 64 then pageByte [(0, 2, 1), (2, 2, s.mgmt.repairs.length), (8, 8, s.mgmt.repairTotal),
        (16, 2, s.arraysInService), (18, 1, s.benchesInService), (19, 1, s.regionsInService)] o
      else
        match s.mgmt.repairs[(o - 64) / 32]? with
        | none => 0
        | some e => pageByte e.fields ((o - 64) % 32) }

/-! ## 0xC5 Checkpoint Status (R367, Table 14.7) -/

/-- The state byte of log 0xC5. -/
def Ckpt.stateCode (c : Ckpt) : Nat :=
  if c.phase = 4 then 5
  else if c.attached = false ∧ c.phase = 0 then 0
  else if c.phase = 1 then 2
  else if c.phase = 3 then 4
  else if c.buddy.isSome ∨ c.flash.isSome then 3 else 1

/-- Bytes of REPLICA_HELD extents of the attached set. -/
def State.replicaBytes (s : State) : Nat :=
  65536 * ((s.ckpt.setEntries.filter fun e => e.cls == 3).map fun e =>
    (s.entryExtent e).length).foldl (· + ·) 0

/-- The fields of log 0xC5. -/
def State.ckptFields (s : State) : List PageField :=
  let c := s.ckpt
  [(0, 2, 1), (2, 1, c.stateCode),
   (3, 1, b2n c.autoCut + 2 * b2n c.flashEnable + 4 * b2n c.autoTakeover + 8 * b2n c.nextFull),
   (4, 2, if s.fabric.configured then s.fabric.partner else 0), (6, 2, s.ts.reserveGb), (8, 8, c.lastCut),
   (0x10, 8, c.buddyCommitted), (0x18, 8, c.buddyPrevious), (0x20, 8, c.flashCommitted),
   (0x28, 8, c.heldCommitted), (0x30, 8, s.savedBytes), (0x38, 8, s.replicaBytes), (0x40, 4, c.meanInterval),
   (0x44, 4, c.cost), (0x48, 4, c.interval), (0x4C, 4, s.flashFloor), (0x50, 4, c.shadowPeak),
   (0x54, 4, c.stallMax), (0x58, 8, c.stallTotal), (0x60, 8, c.regionWritten), (0x68, 4, c.abandoned),
   (0x6C, 1, c.lastAbandon), (0x6D, 1, c.takeoverResult)] ++
  (c.history.take 16).zipIdx.flatMap fun e =>
    let a := 0x100 + 16 * e.2
    [(a, 8, e.1.number), (a + 8, 1, e.1.streams), (a + 9, 1, e.1.outcome), (a + 12, 4, e.1.time)]

/-- Log 0xC5. -/
def State.ckptLog (s : State) : LogPage := { len := 512, byte := pageByte s.ckptFields }

/-! ## Every page (R315, Table 12.9) -/

/-- Lengths of the standard log pages other than SMART, those of NVMe (PRESUMED, notes/assumptions/24.md): Error
Information of 64 entries, Firmware Slot Information, Changed Namespace List, Commands Supported and Effects. -/
def standardLogLen (lid : Nat) : Option Nat :=
  match lid with
  | 1 => some 4096
  | 3 => some 512
  | 4 => some 4096
  | 5 => some 4096
  | _ => none

/-- The log page of identifier `lid`, if the module has one. -/
def State.logPage (s : State) (lid : Nat) : Option LogPage :=
  match lid with
  | 0x02 => some s.smartLog
  | 0xC0 => some s.eraseLog
  | 0xC1 => some s.assayLog
  | 0xC2 => some s.journalLog
  | 0xC3 => some s.identityLog
  | 0xC4 => some s.repairLog
  | 0xC5 => some s.ckptLog
  | n => (standardLogLen n).map fun len => { len := len, byte := Config.standardLog s.host.draws n }

end Sys2Proof.Machine
end

