-- ==== Sys2Proof/Machine/Regs.lean ====
section
/-! DEFINITION. The registers of BAR0: what each reads as, what a write to it does, and the behaviour of an access
to a region or bench window (R6-R8, R28-R31, R190, R210, R289, R319, R346, R380, R381, R413, R415, R427, R435,
R452). A register is the 64-bit word at its aligned offset. -/

namespace Sys2Proof.Machine

/-! ## Fields -/

/-- The sum of fields placed at their lowest bits. -/
def packFields (l : List (Nat × Nat)) : Nat := l.foldl (fun v e => v + e.2 * 2 ^ e.1) 0

/-- A set of flags as a mask, flag 0 lowest. -/
def maskOf (n : Nat) (p : Nat → Bool) : Nat := (List.range n).foldl (fun v i => v + 2 ^ i * b2n (p i)) 0

/-- What a write carries: the 64-bit word it is placed in, and the bits it covers. -/
structure RegWrite where
  value : Nat
  mask : Nat
deriving DecidableEq, Repr

/-- The write of a 64-bit value, or of a 32-bit value to one half of the aligned word. -/
def regWriteOf (offset : Nat) (wide : Bool) (value : Nat) : RegWrite :=
  if wide then { value := value % 2 ^ 64, mask := 2 ^ 64 - 1 }
  else if offset % 8 = 0 then { value := value % 2 ^ 32, mask := 2 ^ 32 - 1 }
  else { value := value % 2 ^ 32 * 2 ^ 32, mask := (2 ^ 32 - 1) * 2 ^ 32 }

/-- A RW field of bits [hi:lo] after a write (R6). -/
def RegWrite.rw (w : RegWrite) (hi lo old : Nat) : Nat := if bitOf w.mask lo then bitsOf w.value hi lo else old

/-- True when the write sets bit `i`. -/
def RegWrite.sets (w : RegWrite) (i : Nat) : Bool := bitOf w.value i

/-- A W1C bit after a write (R6). -/
def RegWrite.w1c (w : RegWrite) (i : Nat) (old : Bool) : Bool := old && !w.sets i

/-- A RW bit after a write. -/
def RegWrite.bit (w : RegWrite) (i : Nat) (old : Bool) : Bool := if bitOf w.mask i then w.sets i else old

/-- A whole 64-bit RW register after a write. -/
def RegWrite.word (w : RegWrite) (old : DWord) : DWord :=
  BitVec.ofNat 64 (w.value + (if bitOf w.mask 0 then 0 else old.toNat % 2 ^ 32) +
    (if bitOf w.mask 63 then 0 else old.toNat / 2 ^ 32 * 2 ^ 32))

/-! ## HD_: hoist die (Tables 8.5, 11.9, 12.11, 13.8, 15.3, 15.4, 17.5) -/

/-- HD_HOST_STAT (Table 12.11). -/
def State.hostStat (s : State) : Nat :=
  let h := s.host
  packFields [(0, b2n h.dual), (1, h.p0Speed), (4, h.p0Width), (9, b2n (tget {} s.mgmt.sideband 0).level),
    (10, h.p1Speed), (13, h.p1Width), (18, b2n (tget {} s.mgmt.sideband 1).level), (19, h.powerState)]

/-- RG_HE_STAT and its copies (Table 8.5). -/
def Haul.stat (h : Haul) : Nat :=
  packFields [(0, h.armed), (16, b2n h.stopped), (17, b2n h.errValid), (18, b2n h.descDropped),
    (19, b2n h.overrun)]

/-- HD_FTL_STAT (Table 11.9): at its reset value until mount sets it (R289). -/
def State.ftlStat (s : State) : Nat :=
  let f := s.flash
  if f.mounted = false then 0
  else packFields [(0, b2n f.readOnly), (1, b2n f.throttling), (2, b2n (f.seam.any fun e => e.2.rebuilding)),
    (3, 1), (8, f.freePct), (16, f.sparePct), (24, f.pins.length)]

/-- HD_FAB_ID (Table 13.8). -/
def State.fabId (s : State) : Nat :=
  let f := s.fabric
  packFields [(0, if f.configured then f.ident else 0), (13, b2n f.configured), (14, b2n f.spare),
    (15, f.spareIndex), (16, f.position), (19, f.board)]

/-- HD_PWR_STAT (Table 17.5). -/
def Power.stat (p : Power) : Nat :=
  packFields [(0, p.capEff), (10, p.capSource), (12, b2n p.fastActive), (13, b2n p.thermalActive),
    (14, b2n p.throttled), (16, p.periodOverruns), (32, p.inputW % 1024), (42, p.input10mv % 8192)]

/-- The HD_ register at offset `o`. -/
def State.hdReg (s : State) (o : Nat) : Nat :=
  let m := s.mgmt
  match o with
  | 0x1000 => s.hostStat
  | 0x2000 => (s.die 0).hoist.stat
  | 0x2010 => (s.die 0).hoist.err0.toNat
  | 0x2018 => (s.die 0).hoist.err1.toNat
  | 0x2100 => (s.die 1).hoist.stat
  | 0x2110 => (s.die 1).hoist.err0.toNat
  | 0x2118 => (s.die 1).hoist.err1.toNat
  | 0x3000 => s.ftlStat
  | 0x3008 => if s.flash.mounted then s.flash.jseq else 0
  | 0x3010 => s.flash.hostIu.toNat
  | 0x3018 => s.flash.mediaIu.toNat
  | 0x3020 => s.flash.hmbErr.toNat
  | 0x4000 => if s.fabric.shown then s.fabId else 0
  | 0x4008 => if s.fabric.shown then s.fabric.epoch else 0
  | 0x4010 => s.fabric.routeSel
  | 0x4018 => if s.fabric.configured then (s.fabric.route s.fabric.routeSel).bits else 0
  | 0x4020 => s.fabric.e2eRetx.toNat
  | 0x4028 => s.fabric.dupDrop.toNat
  | 0x4030 => s.fabric.redraws.toNat
  | 0x4038 => s.fabric.sigDrop.toNat
  | 0x5000 => packFields [(0, m.scrubTarget), (4, m.scrubSelect), (8, b2n m.scrubFast)]
  | 0x5008 => packFields [(0, b2n m.scrubBusy), (1, b2n m.scrubDone), (2, b2n m.scrubAborted),
      (3, b2n m.scrubRejected)]
  | 0x5010 => packFields [(0, m.dramHours), (8, m.sramMinutes)]
  | 0x5018 => m.scrubWords.toNat
  | 0x5020 => m.scrubCorr.toNat
  | 0x5028 => m.scrubTrial.toNat
  | 0x5030 => m.scrubUncorr.toNat
  | 0x5038 => m.scrubRemap.toNat
  | 0x5040 => m.scrubTime.toNat
  | 0x5048 => m.memCorr.toNat
  | 0x5050 => m.memDcorr.toNat
  | 0x5058 => m.memTrials.toNat
  | 0x5060 => packFields [(0, (s.die 0).poison.length), (16, (s.die 1).poison.length)]
  | 0x5100 => packFields [(0, b2n m.eccArm), (1, m.eccMode), (3, m.eccMemory), (5, b2n m.eccInjected)]
  | 0x5108 => m.eccDmask.toNat
  | 0x5110 => m.eccCmask.toNat
  | 0x5118 => m.eccAddr.toNat
  | 0x6000 => s.clk.hoist.toNat
  | 0x6008 => s.power.stat
  | 0x6010 => packFields [(0, s.power.grantF), (10, s.power.grantD), (20, s.power.grantS)]
  | 0x6018 => packFields [(0, s.power.hottest), (8, s.power.sensor), (16, b2n s.power.shutdown)]
  | 0x6020 => s.power.fastCount.toNat
  | 0x6028 => s.power.throttleCount.toNat
  | _ => 0

/-- HD_SCRUB_CTRL written (R379, R380): the fields are set, and with start set a pass begins over the target and
selection named; while one runs the start alone is ignored and sets rejected. -/
def State.writeScrub (s : State) (w : RegWrite) : State :=
  let m := s.mgmt
  let target := w.rw 3 0 m.scrubTarget
  let pick := w.rw 7 4 m.scrubSelect
  let t := s.modMgmt fun x => { x with
    scrubTarget := target, scrubSelect := pick, scrubFast := w.bit 8 x.scrubFast }
  if w.sets 9 ∧ m.scrubBusy = true then t.modMgmt fun x => { x with scrubRejected := true }
  else if w.sets 9 ∧ 1 ≤ target ∧ target ≤ 4 then t.modMgmt fun x => { x with
    scrubBusy := true, scrubPass := (target, pick), scrubSince := s.now, scrubWords := 0, scrubCorr := 0
    scrubTrial := 0, scrubUncorr := 0, scrubRemap := 0, scrubTime := 0 }
  else t

/-- True in the life-cycle states whose test registers take writes (R381). -/
def State.testWritable (s : State) : Bool :=
  s.lifeCycle == .blank || s.lifeCycle == .provisioned || s.lifeCycle == .debug

/-- HD_ECC_TEST_CTRL written (R381). -/
def State.writeEccCtrl (s : State) (w : RegWrite) : State :=
  if s.testWritable then s.modMgmt fun m => { m with
    eccArm := w.bit 0 m.eccArm, eccMode := w.rw 2 1 m.eccMode, eccMemory := w.rw 4 3 m.eccMemory
    eccInjected := w.w1c 5 m.eccInjected }
  else s

/-- A write to the HD_ register at offset `o`. -/
def State.writeHd (s : State) (o : Nat) (w : RegWrite) : State :=
  match o with
  | 0x4010 => s.modFabric fun f => { f with routeSel := w.rw 11 0 f.routeSel }
  | 0x5000 => s.writeScrub w
  | 0x5008 => s.modMgmt fun m => { m with
      scrubDone := w.w1c 1 m.scrubDone, scrubAborted := w.w1c 2 m.scrubAborted
      scrubRejected := w.w1c 3 m.scrubRejected }
  | 0x5010 => s.modMgmt fun m => { m with
      dramHours := w.rw 7 0 m.dramHours, sramMinutes := w.rw 23 8 m.sramMinutes }
  | 0x5100 => s.writeEccCtrl w
  | 0x5108 => if s.testWritable then s.modMgmt fun m => { m with eccDmask := w.word m.eccDmask } else s
  | 0x5110 => if s.testWritable then s.modMgmt fun m => { m with
      eccCmask := BitVec.ofNat 32 (w.rw 23 0 m.eccCmask.toNat) } else s
  | 0x5118 => if s.testWritable then s.modMgmt fun m => { m with
      eccAddr := w.word m.eccAddr &&& 0xFFFFFFFFFFFF#64 } else s
  | _ => s

/-! ## SC_ and MG_ (Tables 16.10 and 18.10) -/

/-- SC_LC_STAT (R413). -/
def State.scReg (s : State) (o : Nat) : Nat :=
  let x := s.sec
  if o = 0 then packFields [(0, s.lifeCycle.code), (4, x.lcRecord.length), (9, x.svn), (16, x.slotRevoked),
    (19, x.bootBank), (20, x.bootSlot), (22, b2n x.signRequired), (23, maskOf 4 fun i => thas x.programDigest i)]
  else 0

/-- The MG_ register at offset `o`. -/
def State.mgReg (s : State) (o : Nat) : Nat :=
  let m := s.mgmt
  match o with
  | 0x100 => packFields [(0, maskOf 4 fun i => (tget {} m.sideband i).level),
      (4, maskOf 4 fun i => (tget {} m.sideband i).masked)]
  | 0x108 => packFields [(0, 3000), (16, m.kickAge)]
  | 0x110 =>
    let w : FwWork := m.fwWork.getD {}
    let st := if m.fwWork.isSome then w.stage else if m.fwStaged.len = 0 then 0 else 1
    packFields [(0, st), (3, w.bank), (4, w.sectors), (16, m.fwResult)]
  | 0x118 => packFields [(0, m.locate), (2, b2n (s.criticalWarning != 0)), (3, b2n m.attnBlink)]
  | _ => 0

/-- A write to the MG_ register at offset `o`. -/
def State.writeMg (s : State) (o : Nat) (w : RegWrite) : State :=
  if o = 0x118 then s.modMgmt fun m => { m with locate := w.rw 1 0 m.locate } else s

/-! ## FD_: face dies (Tables 1.5, 7.8 to 7.11, 17.5) -/

/-- The state code of a region (Table 1.5); it reads ACTIVE until the PLL stops (R419). -/
def RegionState.code (x : RegionState) : Nat :=
  match x with | .active => 0 | .sleep => 1 | .waking => 2 | .reset => 3 | .retired => 4

/-- FD_REGION_STATE of face die `d` (R30). -/
def State.regionState (s : State) (d : Nat) : Nat :=
  packFields ((List.range 4).flatMap fun r =>
    [(8 * r, (s.region (4 * d + r)).st.code),
     (8 * r + 3, maskOf 5 fun b => s.benchInService (5 * (4 * d + r) + b))])

/-- Regions in service on face die `d`. -/
def State.dieRegions (s : State) (d : Nat) : Nat :=
  ((List.range 4).filter fun r => (s.region (4 * d + r)).st != .retired).length

/-- The snapshot of a slot's descriptor that FD_EXT_SEL takes (Table 7.10). -/
def State.extData (s : State) (d j : Nat) : DWord × DWord × DWord :=
  let e := s.extent d j
  (BitVec.ofNat 64 (packFields [(0, e.length), (16, e.st), (18, e.copyTier), (20, e.homeTier), (22, e.destTier),
     (24, b2n e.pinned), (25, b2n e.shared), (26, b2n (!e.poison.isEmpty)),
     (27, b2n (s.inWindow (extentBase d j))), (28, e.affinity), (30, e.owner)]),
   BitVec.ofNat 64 (packFields [(0, e.lastUse % 2 ^ 32), (32, e.copyDirty.length)]),
   BitVec.ofNat 64 (packFields [(0, e.landed.length), (32, e.pageDirty.length)]))

/-- FD_EXT_SEL written (R190): the slot's snapshot is taken. -/
def State.selectExtent (s : State) (d slot : Nat) : State :=
  let x := s.extData d slot
  s.modDie d fun y => { y with extSel := slot, data0 := x.1, data1 := x.2.1, data2 := x.2.2 }

/-- The FD_ register of face die `d` at offset `o`. -/
def State.fdReg (s : State) (d o : Nat) : Nat :=
  let x := s.die d
  match o with
  | 0x20 => s.dieNow d
  | 0x40 => s.regionState d
  | 0x100 => packFields [(0, 8192 * s.dieRegions d), (16, s.t2Pool d), (36, s.t3Pool)]
  | 0x108 => packFields [(0, s.slotsUsed d), (17, s.movesActive d), (24, x.lastExhaust), (32, b2n x.exhausted),
      (33, b2n x.moveAbandoned)]
  | 0x110 => x.extSel
  | 0x118 => x.data0.toNat
  | 0x120 => x.data1.toNat
  | 0x128 => x.data2.toNat
  | 0x140 => x.promoted.toNat
  | 0x148 => x.demoted.toNat
  | 0x150 => x.dropped.toNat
  | 0x158 => x.waitCyc.toNat
  | 0x160 => x.hoistLate.toNat
  | _ => 0

/-- A write to the FD_ register of face die `d` at offset `o`. -/
def State.writeFd (s : State) (d o : Nat) (w : RegWrite) : State :=
  match o with
  | 0x108 => s.modDie d fun x => { x with
      exhausted := w.w1c 32 x.exhausted, moveAbandoned := w.w1c 33 x.moveAbandoned }
  | 0x110 => s.selectExtent d (w.rw 15 0 (s.die d).extSel)
  | _ => s

/-! ## RG_: regions (Tables 8.5 to 8.7, 17.6) -/

/-- RG_HE_PEND of line `l`. -/
def Haul.pend (h : Haul) (l : Nat) : Nat :=
  packFields [(0, h.pending l), (16, (tget {} h.lines l).index % 65536)]

/-- The RG_ register of region `r` at offset `o`. -/
def State.rgReg (s : State) (r o : Nat) : Nat :=
  let g := s.region r
  let h := g.haul
  if 0xA00 ≤ o ∧ o < 0xB00 then packFields [(0, h.pend ((o - 0xA00) / 4)), (32, h.pend ((o - 0xA00) / 4 + 1))]
  else if 0x1000 ≤ o ∧ o < 0x2000 then
    bitsOf (tget {} h.lines ((o - 0x1000) / 64)).desc.toNat (8 * (o % 64) + 63) (8 * (o % 64))
  else match o with
  | 0x100 => packFields [(0, g.step), (5, b2n g.halved), (6, g.shareW)]
  | 0x108 => packFields [(0, g.maxStep), (16, g.sleepIdle)]
  | 0x110 => g.wakeCount.toNat
  | 0x800 => h.stat
  | 0x810 => h.err0.toNat
  | 0x818 => h.err1.toNat
  | 0x820 => h.bursts.toNat
  | 0x828 => h.bytes.toNat
  | 0x830 => h.stops.toNat
  | _ => 0

/-- RG_CLK_CTRL written (R418). -/
def State.writeClkCtrl (s : State) (r : Nat) (w : RegWrite) : State :=
  s.modRegion r fun g => { g with maxStep := w.rw 4 0 g.maxStep, sleepIdle := w.rw 31 16 g.sleepIdle }

/-- Bits [lo + 63:lo] of a descriptor replaced. -/
def descPut (d : BitVec 512) (lo : Nat) (v : Nat) : BitVec 512 :=
  let x := d.toNat
  BitVec.ofNat 512 (x % 2 ^ lo + v * 2 ^ lo + x / 2 ^ (lo + 64) * 2 ^ (lo + 64))

/-- A write by function `fn` to the RG_ register of region `r` at offset `o`. -/
def State.writeRg (s : State) (fn r o : Nat) (w : RegWrite) : State :=
  if 0x1000 ≤ o ∧ o < 0x2000 then
    let l := (o - 0x1000) / 64
    let old := (tget {} (s.region r).haul.lines l).desc
    s.writeLine r l (descPut old (8 * (o % 64)) (w.word (BitVec.ofNat 64 (s.rgReg r o))).toNat)
  else match o with
  | 0x108 => s.writeClkCtrl r w
  | 0x800 => s.writeHeStat r w.value
  | 0x808 => s.writeHeArm fn r (w.value % 65536)
  | _ => s

/-! ## BN_: benches (Tables 3.7, 3.8, 4.5 to 4.8, 5.11 to 5.15, 6.3, 10.7) -/

/-- BN_SEQ_STAT (Table 5.11). -/
def Sequencer.stat (q : Sequencer) : Nat :=
  let code := match q.st with
    | .unbound => 0 | .bound => 1 | .running => 2 | .waiting => 3 | .ended => 4 | .faulted => 5
  packFields [(0, q.pc), (14, code), (17, maskOf 8 fun i => q.waitCause.contains i), (25, q.routeQueue.length)]

/-- BN_SEQ_BIND (Table 5.14). -/
def Binding.reg (b : Binding) : Nat :=
  packFields ([(0, b.logical), (6, 1), (16, b.arrayNeed), (19, b.logicalRegion)] ++
    (b.arrayMap.zipIdx.map fun e => (8 + 2 * e.2, e.1)) ++ b.groupMap.zipIdx.map fun e => (24 + 2 * e.2, e.1))

/-- BN_SEQ_BANKMAP (Table 5.15); 0xE4E4_E4E4 where nothing is bound. -/
def Bench.bankReg (x : Bench) : Nat :=
  packFields (((x.bind.getD {}).bankMap).zipIdx.map fun e => (2 * e.2, e.1))

/-- BN_WALK_STAT (Table 10.7). -/
def Walker.stat (w : Walker) : Nat :=
  let active := match w.search with
    | none => 0
    | some v => (v.queries.filter fun q => !q.stopped).length
  packFields [(0, b2n (!w.retired)), (1, b2n (w.search.isSome || w.launch.isSome)), (2, active), (8, w.lastCause)]

/-- The BN_ register of global bench `b` at offset `o`. -/
def State.bnReg (s : State) (b o : Nat) : Nat :=
  let x := s.bench b
  let arr := fun a => tget ({} : Arr) x.arrays a
  match o with
  | 0x300 => packFields [(0, b2n x.nonfiniteIn), (1, b2n x.outSaturated), (2, b2n x.fpInvalid),
      (3, b2n x.fpOverflow)]
  | 0x308 => x.satCount.toNat
  | 0x310 => packFields [(0, maskOf 4 fun a => !s.mfg.fusedOff.contains (4 * b + a) && !(arr a).retired),
      (4, maskOf 4 fun a => s.mfg.fusedOff.contains (4 * b + a)), (8, maskOf 4 fun a => (arr a).retired),
      (12, maskOf 4 fun a => (arr a).retirePending)]
  | 0x318 => packFields [(0, x.gate.fillTarget), (16, x.gate.deadlineTicks)]
  | 0x320 => packFields [(0, x.gate.rows.length), (10, b2n x.gate.waiting), (11, b2n x.gate.lastByDeadline)]
  | 0x328 => x.gate.fillCount.toNat
  | 0x330 => x.gate.deadlineCount.toNat
  | 0x340 => (arr 0).loadCyc.toNat
  | 0x348 => (arr 0).rows.toNat
  | 0x350 => (arr 1).loadCyc.toNat
  | 0x358 => (arr 1).rows.toNat
  | 0x360 => (arr 2).loadCyc.toNat
  | 0x368 => (arr 2).rows.toNat
  | 0x370 => (arr 3).loadCyc.toNat
  | 0x378 => (arr 3).rows.toNat
  | 0x400 => x.seq.stat
  | 0x408 => packFields [(0, x.seq.faultCode), (8, x.seq.faultPc)]
  | 0x410 => x.seq.waitLimit
  | 0x418 => (x.bind.map Binding.reg).getD 0
  | 0x420 => x.bankReg
  | 0x428 => x.seqSteps.toNat
  | 0x480 => x.routePosted.toNat
  | 0x488 => x.routeDiscarded.toNat
  | 0x490 => x.skippedSteps.toNat
  | 0x498 => x.jtabTaken.toNat
  | 0x500 => x.walker.stat
  | 0x508 => x.walker.visits.toNat
  | 0x510 => x.walker.expansions.toNat
  | 0x518 => x.walker.pages.toNat
  | 0x520 => x.walker.shared.toNat
  | _ => 0

/-- A write to the BN_ register of global bench `b` at offset `o`. -/
def State.writeBn (s : State) (b o : Nat) (w : RegWrite) : State :=
  match o with
  | 0x300 => s.modBench b fun x => { x with
      nonfiniteIn := w.w1c 0 x.nonfiniteIn, outSaturated := w.w1c 1 x.outSaturated
      fpInvalid := w.w1c 2 x.fpInvalid, fpOverflow := w.w1c 3 x.fpOverflow }
  | 0x318 => s.modBench b fun x => { x with gate := { x.gate with
      fillTarget := w.rw 8 0 x.gate.fillTarget, deadlineTicks := w.rw 31 16 x.gate.deadlineTicks } }
  | 0x410 => s.modSeq b fun q => { q with waitLimit := w.rw 15 0 q.waitLimit }
  | _ => s

/-! ## SM_, PL_ and AS_ (Tables 2.10, 2.11, 11.8, 13.9, 18.4) -/

/-- Dies of a stack that its capacity fits, as a mask. -/
def State.diesFitted (s : State) : Nat := 2 ^ s.diesPerStack - 1

/-- The SM_ register of seam stack `k` at offset `o`. The sieve is busy while a running scan has pages on the stack, and
a scan that has stopped counts in active_scans until SCAN_COMPLETE (DESIGN CHOICE, notes/assumptions/110.md). -/
def State.smReg (s : State) (k o : Nat) : Nat :=
  let x := s.stack k
  match o with
  | 0x100 =>
    if s.flash.mounted then
      packFields [(0, s.diesFitted), (16, maskOf s.diesPerStack fun d => s.dieServes k d), (32, x.st)]
    else packFields [(0, s.diesFitted), (16, 0xFFFF)]
  | 0x108 => x.reads.toNat
  | 0x110 => x.programs.toNat
  | 0x118 => x.erases.toNat
  | 0x120 => x.corrected.toNat
  | 0x128 => x.escalated.toNat
  | 0x200 => packFields [(0, b2n (s.scans.any fun c => !c.stopped && c.pages.any fun p => p.stack == k)),
      (1, (s.scans.filter fun c => c.pages.any fun p => p.stack == k).length),
      (8, x.sieveLastError), (16, b2n x.malformedSeen)]
  | 0x208 => x.sievePages.toNat
  | 0x210 => x.sieveTerms.toNat
  | 0x218 => x.sieveOut.toNat
  | _ => 0

/-- A write to the SM_ register of seam stack `k` at offset `o`. -/
def State.writeSm (s : State) (k o : Nat) (w : RegWrite) : State :=
  if o = 0x200 then s.modStack k fun x => { x with malformedSeen := w.w1c 16 x.malformedSeen } else s

/-- The PL_ register of port `p` at offset `o`. -/
def State.plReg (s : State) (p o : Nat) : Nat :=
  let x := s.port p
  match o with
  | 0x00 => packFields [(0, x.st), (4, x.activeLanes), (8, x.retiredLanes), (12, x.farIdent), (25, x.farPort)]
  | 0x08 => b2n x.disable
  | 0x10 => (x.fec.getD 0 0).toNat
  | 0x18 => (x.fec.getD 1 0).toNat
  | 0x20 => (x.fec.getD 2 0).toNat
  | 0x28 => (x.fec.getD 3 0).toNat
  | 0x30 => x.uncorr.toNat
  | 0x38 => x.replays.toNat
  | 0x40 => x.retrains.toNat
  | 0x48 => x.flitsTx.toNat
  | 0x50 => x.flitsRx.toNat
  | _ => 0

/-- A write to the PL_ register of port `p` at offset `o` (R324). -/
def State.writePl (s : State) (p o : Nat) (w : RegWrite) : State :=
  if o = 0x08 ∧ w.bit 0 (s.port p).disable ≠ (s.port p).disable then s.setDisable p (!(s.port p).disable) else s

/-- The configuration of a monitor written (R433): at once while it is disabled, where enabling makes it
capture from the next boundary of its window on; at the next boundary of the old window while it is enabled. -/
def Monitor.configure (m : Monitor) (now : Nat) (c0 c1 : DWord) : Monitor :=
  if m.enabled then { m with cfg0 := c0, cfg1 := c1, pending := true }
  else { m with
    cfg0 := c0, cfg1 := c1, live0 := c0, live1 := c1, capturing := false
    windows := if bitOf c0.toNat 0 then 0 else m.windows
    start := if bitOf c0.toNat 0 then (now / windowOf c0 + 1) * windowOf c0 else m.start }

/-- Bits of AS_MON_CFG0 that take a write. -/
def monitorBits : DWord := 0xFFFFFFFF00FFFF01#64

/-- Monitor `i` configured. -/
def State.configureMonitor (s : State) (i : Nat) (c0 c1 : DWord) : State :=
  s.modMgmt fun m => { m with
    monitors := tmod {} m.monitors i fun x => (x.roll i s.now).configure s.now (c0 &&& monitorBits) c1 }

/-- The AS_ register at offset `o`. -/
def State.asReg (s : State) (o : Nat) : Nat :=
  let m : Monitor := tget {} s.mgmt.monitors (o / 64)
  if 4096 ≤ o then 0
  else match o % 64 with
  | 0x00 => m.cfg0.toNat
  | 0x08 => m.cfg1.toNat
  | 0x10 => packFields [(0, m.windows.toNat), (32, b2n m.pending)]
  | _ => 0

/-- A write to the AS_ register at offset `o`. -/
def State.writeAs (s : State) (o : Nat) (w : RegWrite) : State :=
  let m : Monitor := tget {} s.mgmt.monitors (o / 64)
  if 4096 ≤ o then s
  else match o % 64 with
  | 0x00 => s.configureMonitor (o / 64) (w.word m.cfg0) m.cfg1
  | 0x08 => s.configureMonitor (o / 64) m.cfg0 (w.word m.cfg1)
  | _ => s

/-! ## NVMe controller registers: the standard layout (R28), whose offsets are NVMe's (PRESUMED,
notes/assumptions/25.md) -/

/-- The NVMe register of function `fn` at offset `o`: CAP.MQES and CAP.TO (Tables 12.3 and 12.4), CC, CSTS.RDY and
CSTS.CFS, AQA; the rest is an implementation constant. -/
def State.nvmeReg (s : State) (fn o : Nat) : Nat :=
  let k := s.ctl fn
  let std := Config.nvmeRegister o % 2 ^ 64
  match o with
  | 0x00 => std / 2 ^ 32 * 2 ^ 32 + 0x50 * 2 ^ 24 + bitsOf std 23 16 * 2 ^ 16 + 0x0FFF
  | 0x10 => packFields [(33, bitsOf k.cc.toNat 31 1), (32, b2n k.en)]
  | 0x18 => packFields [(32, b2n k.rdy), (33, b2n k.cfs)]
  | 0x20 => packFields [(32, k.aqa.toNat)]
  | _ => if 0x1000 ≤ o then 0 else std

/-- CC written: EN set enables the controller, EN cleared resets it. -/
def State.writeCc (s : State) (fn : Nat) (cc : Word) : State :=
  if bitOf cc.toNat 0 then
    if (s.ctl fn).en then s.modCtl fn fun k => { k with cc := cc } else s.enableCtl fn cc
  else if (s.ctl fn).en ∨ (s.ctl fn).cfs then (s.resetControllers [fn]).settle
  else s.modCtl fn fun k => { k with cc := cc }

/-- A write of function `fn` to its NVMe register at offset `o`. -/
def State.writeNvme (s : State) (fn o : Nat) (w : RegWrite) : State :=
  let hi := BitVec.ofNat 32 (w.value / 2 ^ 32)
  if 0x1000 ≤ o then
    let s1 := if bitOf w.mask 0 then s.ringSq fn ((o - 0x1000) / 8) (w.value % 65536) else s
    s1
  else match o with
  | 0x10 => if bitOf w.mask 63 then s.writeCc fn hi else s
  | 0x20 =>
    let s1 := if bitOf w.mask 63 then s.modCtl fn fun k => { k with aqa := hi } else s
    if bitOf w.mask 0 ∧ w.value % 2 ^ 32 = 0x4E564D65 then s1.subsystemReset fn else s1
  | _ => s

/-! ## BAR0 (R28, R29) -/

/-- Where an offset of BAR0 lies. -/
inductive Place where
  | nvme (o : Nat)
  | hd (o : Nat)
  | sc (o : Nat)
  | mg (o : Nat)
  | fd (die o : Nat)
  | rg (region o : Nat)
  | bn (bench o : Nat)
  | sm (stack o : Nat)
  | pl (port o : Nat)
  | assay (o : Nat)
  | reserved
deriving DecidableEq, Repr

/-- The place within a face die window (R29). -/
def diePlace (d o : Nat) : Place :=
  if o < 0x100000 then .fd d o
  else if o < 0x500000 then
    let r := 4 * d + (o / 0x100000 - 1)
    let q := o % 0x100000
    if q < 0x20000 then .rg r q
    else if q < 0xC0000 then .bn (5 * r + (q / 0x20000 - 1)) (q % 0x20000)
    else .rg r q
  else .reserved

/-- The place of an offset (Table 1.4). -/
def placeOf (o : Nat) : Place :=
  if o < 0x100000 then .nvme o
  else if o < 0x200000 then .hd (o - 0x100000)
  else if o < 0x300000 then .sc (o - 0x200000)
  else if o < 0x400000 then .mg (o - 0x300000)
  else if o < 0x1000000 then .reserved
  else if o < 0x3000000 then diePlace (o / 0x1000000 - 1) (o % 0x1000000)
  else if o < 0x3200000 then .sm ((o - 0x3000000) / 0x10000) (o % 0x10000)
  else if o < 0x3400000 then .reserved
  else if o < 0x3480000 then .pl ((o - 0x3400000) / 0x10000) (o % 0x10000)
  else if o < 0x3800000 then .reserved
  else if o < 0x3900000 then .assay (o - 0x3800000)
  else .reserved

/-- The 64-bit register at an aligned offset; reserved offsets read as 0 (R7). -/
def State.regAt (s : State) (fn o : Nat) : Nat :=
  match placeOf o with
  | .nvme a => s.nvmeReg fn a
  | .hd a => s.hdReg a
  | .sc a => s.scReg a
  | .mg a => s.mgReg a
  | .fd d a => s.fdReg d a
  | .rg r a => s.rgReg r a
  | .bn b a => s.bnReg b a
  | .sm k a => s.smReg k a
  | .pl p a => s.plReg p a
  | .assay a => s.asReg a
  | .reserved => 0

/-- A write to the register at an aligned offset; reserved offsets ignore it (R7). -/
def State.writeAt (s : State) (fn o : Nat) (w : RegWrite) : State :=
  match placeOf o with
  | .nvme a => s.writeNvme fn a w
  | .hd a => s.writeHd a w
  | .sc _ => s
  | .mg a => s.writeMg a w
  | .fd d a => s.writeFd d a w
  | .rg r a => s.writeRg fn r a w
  | .bn b a => s.writeBn b a w
  | .sm k a => s.writeSm k a w
  | .pl p a => s.writePl p a w
  | .assay a => s.writeAs a w
  | .reserved => s

/-- The KCLK counter whose register lies at an aligned offset: face dies 0 and 1, 2 the hoist die. -/
def counterAt (o : Nat) : Option Nat :=
  if o = 0x106000 then some 2 else if o = 0x1000020 then some 0 else if o = 0x2000020 then some 1 else none

/-- The latch of a KCLK counter set (R415). -/
def Clock.setLatch (c : Clock) (k : Nat) (v : Option Word) : Clock :=
  match k with | 0 => { c with latch0 := v } | 1 => { c with latch1 := v } | _ => { c with latchH := v }

/-- The latch of a KCLK counter. -/
def Clock.latch (c : Clock) (k : Nat) : Option Word :=
  match k with | 0 => c.latch0 | 1 => c.latch1 | _ => c.latchH

/-- A read of 64 bits at an aligned offset, or of 32 bits of one half: a 32-bit read of a KCLK counter's low half
latches the high half, which the next 32-bit read of the high half returns (R415). -/
def State.readReg (s : State) (fn offset : Nat) (wide : Bool) : State × DWord :=
  let a := offset / 8 * 8
  let v := s.regAt fn a
  if wide then (s, BitVec.ofNat 64 v)
  else
    let half := if offset % 8 = 0 then v % 2 ^ 32 else v / 2 ^ 32 % 2 ^ 32
    match counterAt a with
    | none => (s, BitVec.ofNat 64 half)
    | some k =>
      if offset % 8 = 0 then
        (s.modClk fun c => c.setLatch k (some (BitVec.ofNat 32 (v / 2 ^ 32))), BitVec.ofNat 64 half)
      else
        (s.modClk fun c => c.setLatch k none,
         match s.clk.latch k with | some h => h.zeroExtend 64 | none => BitVec.ofNat 64 half)

/-! ## Window accesses (R31) -/

/-- A register access performed, with its answer. -/
def State.perform (s : State) (x : HeldAccess) : State :=
  let r := if x.isWrite then (s.writeAt x.fn (x.offset / 8 * 8) (regWriteOf x.offset x.wide x.value.toNat), 0#64)
    else s.readReg x.fn x.offset x.wide
  r.1.modHost fun h => { h with
    regReplies := h.regReplies ++ [{ offset := x.offset, isWrite := x.isWrite, value := r.2 }] }

/-- An access answered with `v` and without effect. -/
def State.answerReg (s : State) (x : HeldAccess) (v : DWord) : State :=
  s.modHost fun h => { h with regReplies := h.regReplies ++
    [{ offset := x.offset, isWrite := x.isWrite, value := if x.isWrite then 0 else v }] }

/-- An access to a region or bench window by the state of its region or bench (R31): retired units read 0, a
region in RESET reads all ones, and a sleeping region wakes and holds the access. DESIGN CHOICE
(notes/assumptions/101.md): a 64-bit read of a region in RESET answers 64 ones; the window of a bench not in
service answers all ones while its region is in RESET, and otherwise 0 at once, without waking the region. -/
def State.windowGate (s : State) (r : Nat) (serves : Bool) (x : HeldAccess) : State :=
  match (s.region r).st with
  | .retired => s.answerReg x 0
  | .reset => s.answerReg x (if x.wide then 0xFFFFFFFFFFFFFFFF#64 else 0xFFFFFFFF#64)
  | .active => if serves then (s.wake r).perform x else s.answerReg x 0
  | .sleep => if serves then (s.wake r).modRegion r fun g => { g with held := g.held ++ [x] } else s.answerReg x 0
  | .waking => if serves then s.modRegion r fun g => { g with held := g.held ++ [x] } else s.answerReg x 0

/-- A register access of function `fn` through its BAR0. -/
def State.accessReg (s : State) (x : HeldAccess) : State :=
  if s.power.on = false ∨ s.hasFn x.fn = false then s
  else match placeOf (x.offset / 8 * 8) with
  | .rg r _ => s.windowGate r true x
  | .bn b _ => s.windowGate (regionOf b) (s.benchInService b) x
  | _ => s.perform x

/-- True when an access lies in the function's BAR0 and is aligned. -/
def accessOk (fn offset : Nat) (wide : Bool) : Bool :=
  decide (offset + (if wide then 8 else 4) ≤ barSize fn) && decide (offset % (if wide then 8 else 4) = 0)

/-! ## The commands -/

/-- REGISTER_WRITE (R6, R7, R28): a write at an offset of the function's BAR0. -/
def execRegisterWrite (fn offset : Nat) (wide : Bool) (value : DWord) (s : State) :
    Host.Outcome State Fault Refusal :=
  if accessOk fn offset wide then
    .next (s.accessReg { fn := fn, offset := offset, wide := wide, isWrite := true, value := value })
  else .fault .outsideBar0

/-- WINDOW_ACCESS (R31): a read or a write, of 32 or 64 bits; its answer is listed once it is performed. -/
def execWindowAccess (fn offset : Nat) (wide isWrite : Bool) (value : DWord) (s : State) :
    Host.Outcome State Fault Refusal :=
  if accessOk fn offset wide then
    .next (s.accessReg { fn := fn, offset := offset, wide := wide, isWrite := isWrite, value := value })
  else .fault .outsideBar0

/-- The offset of a KCLK counter's register. -/
def counterOffset (k : Nat) : Nat := match k with | 0 => 0x1000020 | 1 => 0x2000020 | _ => 0x106000

/-- KCLK_LOW_READ (R415): a 32-bit read of the low half of a counter through a PF. -/
def execKclkLowRead (fn counter : Nat) (s : State) : Host.Outcome State Fault Refusal :=
  .next (if isPf fn then s.accessReg
    { fn := fn, offset := counterOffset counter, wide := false, isWrite := false, value := 0 } else s)

/-- A 32-bit write through a PF's BAR0; VFs have no such registers (Table 12.1). -/
def State.pfWrite (s : State) (fn offset : Nat) (wide : Bool) (value : DWord) : State :=
  if isPf fn then s.accessReg { fn := fn, offset := offset, wide := wide, isWrite := true, value := value } else s

/-- Offset of the RG_ block of global region `r` (R29). -/
def regionBase (r : Nat) : Nat := 0x1000000 * (r / 4 + 1) + 0x100000 * (r % 4 + 1)

/-- SCRUB_PASS_START (R379): HD_SCRUB_CTRL written. -/
def execScrubPassStart (fn : Nat) (value : Word) (s : State) : Host.Outcome State Fault Refusal :=
  .next (s.pfWrite fn 0x105000 false (value.zeroExtend 64))

/-- HAUL_ENGINE_ERROR_CLEAR (R207): RG_HE_STAT written. -/
def execHaulEngineErrorClear (fn region : Nat) (value : Word) (s : State) : Host.Outcome State Fault Refusal :=
  .next (s.pfWrite fn (regionBase region + 0x800) false (value.zeroExtend 64))

/-- HAUL_ENGINE_RE_ARM (R207): RG_HE_ARM written. -/
def execHaulEngineReArm (fn region : Nat) (value : Word) (s : State) : Host.Outcome State Fault Refusal :=
  .next (s.pfWrite fn (regionBase region + 0x808) false (value.zeroExtend 64))

/-- LINE_DESCRIPTOR_WRITE (R192, R195): the 64 bytes of a line's descriptor, written as eight words. -/
def execLineDescriptorWrite (fn region line : Nat) (desc : BitVec 512) (s : State) :
    Host.Outcome State Fault Refusal :=
  .next ((List.range 8).foldl (fun t i =>
    t.pfWrite fn (regionBase region + 0x1000 + 64 * line + 8 * i) true
      (BitVec.ofNat 64 (bitsOf desc.toNat (64 * i + 63) (64 * i)))) s)

/-- EXTENT_SNAPSHOT_SELECT (R190): FD_EXT_SEL written. -/
def execExtentSnapshotSelect (fn die : Nat) (value : Word) (s : State) : Host.Outcome State Fault Refusal :=
  .next (s.pfWrite fn (0x1000000 * (die + 1) + 0x110) false (value.zeroExtend 64))

/-- PORT_DISABLE (R324): PL_PORT_CTRL.disable set. -/
def execPortDisable (fn port : Nat) (s : State) : Host.Outcome State Fault Refusal :=
  .next (s.pfWrite fn (0x3400000 + 0x10000 * port + 8) false 1)

/-- PORT_ENABLE (R324): PL_PORT_CTRL.disable cleared. -/
def execPortEnable (fn port : Nat) (s : State) : Host.Outcome State Fault Refusal :=
  .next (s.pfWrite fn (0x3400000 + 0x10000 * port + 8) false 0)

/-- ECC_TEST_ARM (R381): HD_ECC_TEST_CTRL written. -/
def execEccTestArm (fn : Nat) (value : Word) (s : State) : Host.Outcome State Fault Refusal :=
  .next (s.pfWrite fn 0x105100 false (value.zeroExtend 64))

/-- MONITOR_CONFIGURE (R433): both configuration registers of a monitor written. -/
def execMonitorConfigure (fn monitor : Nat) (cfg0 cfg1 : DWord) (s : State) :
    Host.Outcome State Fault Refusal :=
  .next (if isPf fn = false ∨ s.power.on = false ∨ s.hasFn fn = false then s
  else s.configureMonitor monitor cfg0 cfg1)

/-- MAX_STEP_WRITE (R418): RG_CLK_CTRL written; it counts from the next management period. -/
def execMaxStepWrite (fn region : Nat) (value : Word) (s : State) : Host.Outcome State Fault Refusal :=
  .next (s.pfWrite fn (regionBase region + 0x108) false (value.zeroExtend 64))

/-- WAKE_COMPLETE (R420): the region is ACTIVE at step 0, with its clock halved where the limiter is active, and
the accesses that it held are performed. -/
def execWakeComplete (region : Nat) (s : State) : Host.Outcome State Fault Refusal :=
  .next (if (s.region region).st ≠ .waking then s
  else
    let held := (s.region region).held
    let t := s.modRegion region fun g => { g with
      st := .active, step := 0, halved := s.power.fastActive, sleptPeriod := true, held := []
      idleSince := some (s.dieNow (dieOf region)), entering := 0 }
    ((held.foldl State.perform t).stream).settle)

end Sys2Proof.Machine
end

