-- ==== Sys2Proof/Machine/Admin.lean ====
section
/-! DEFINITION. Admin commands: Identify, Get Log Page, features, Format NVM, Sanitize and namespace management
(R281, R285, R290, R297, R298, R315, R405, R407, R421). -/

namespace Sys2Proof.Machine

/-! ## Identify (R297, R298) -/

/-- Bytes that namespaces may allocate: the advertised capacity less the T3 size (R168). -/
def State.nvmCapacity (s : State) : Nat := s.advertised - s.ts.t3Gb * 1000000000

/-- HMPRE of a function in units of 4 KiB (Table 12.4). -/
def State.hmpre (s : State) (fn : Nat) : Nat :=
  if isPf fn then (if s.host.dual then 0x00400000 else 0x00800000) else 0

/-- The power state descriptors PS0 to PS4 (Table 12.10). -/
def powerDescriptors : List PowerDescriptor :=
  [⟨true, 650, 0, 0⟩, ⟨true, 450, 1000, 1000⟩, ⟨true, 250, 1000, 1000⟩, ⟨false, 90, 1000, 15⟩, ⟨false, 35, 5000, 2000⟩]

/-- Text padded with spaces to `n` characters. -/
def padded (n : Nat) (x : String) : String := x ++ String.ofList (List.replicate (n - x.length) ' ')

/-- The namespace data of an active namespace (Table 12.4). -/
def Ns.data (n : Ns) : IdentifyNamespace :=
  { blocks := n.blocks, encrypted := n.encrypted, nawun := 0x1F, nawupf := 0x1F, npwg := 3, npdg := 3
    nows := 0x3F, dlfeat := 1 }

/-- The controller data of function `fn` (Table 12.4). -/
def State.controllerData (s : State) (fn : Nat) : IdentifyController :=
  { modelNumber := padded 40 s.mfg.partNumber, mdts := 9, vwc := 0, awun := 0x1F, awupf := 0x1F, npwg := 3, nows := 0x3F
    nn := 64, tnvmcap := s.nvmCapacity, hmpre := s.hmpre fn, hmmin := 0, hmminds := 0x200, hmmaxd := 256
    npss := 4, apsta := 1, powerStates := powerDescriptors, firmwareSlots := 2, slot1ReadOnly := false
    sqes := 0x66, cqes := 0x44, dlfeat := 1, capTo := 0x50, capMqes := 0x0FFF }

/-- A reply of `n` bytes that the spec leaves to NVMe, with the draw counted. -/
def State.answerFree (s : State) (c : Src) (n : Nat) (byte : Nat → Byte) : State :=
  (s.modHost fun h => { h with draws := h.draws + 1 }).answer c (.data (Buf.ofBytes ((List.range n).map byte)))

/-- The IDs above `nsid` of the active namespaces attached to function `fn`, ascending. -/
def State.nsList (s : State) (fn nsid : Nat) : List Nat :=
  (List.range 65).filter fun n => decide (nsid < n) && s.nsUsable fn n

/-- Identify of a namespace: zero-filled for an ID that is not active on the controller (R297). -/
def State.identifyNs (s : State) (c : Src) (nsid : Nat) : State :=
  if nsid = 0xFFFFFFFF then s.answerFree c 4096 (Config.standardIdentify s.host.draws 0)
  else if 64 < nsid ∨ nsid = 0 then s.done c .invalidNamespace
  else if s.nsUsable c.fn nsid then s.answer c (.namespaceData (s.ns nsid).data)
  else s.answer c (.namespaceData {})

/-- IDENTIFY (R297, R298): CNS 0 the namespace, 1 the controller, 2 the list of active namespaces; the other data
structures are NVMe's (notes/assumptions/24.md). -/
def execIdentify (c : Src) (cns nsid : Nat) (s : State) : Host.Outcome State Fault Refusal :=
  .next (hostCmd c .info (fun t =>
    if cns = 0 then t.identifyNs c nsid
    else if cns = 1 then t.answer c (.controller (t.controllerData c.fn))
    else if cns = 2 then t.answer c (.list (t.nsList c.fn nsid))
    else t.answerFree c 4096 (Config.standardIdentify t.host.draws cns)) s)

/-! ## Get Log Page (R315) -/

/-- A window of a log page: bytes beyond its end read as zero. -/
def LogPage.read (p : LogPage) (offset len : Nat) : Buf :=
  Buf.ofBytes ((List.range len).map fun i => if offset + i < p.len then p.byte (offset + i) else 0)

/-- GET_LOG_PAGE (R315): a VF that requests a vendor page receives Invalid Log Page. -/
def execGetLogPage (c : Src) (lid offset len : Nat) (s : State) : Host.Outcome State Fault Refusal :=
  .next (hostCmd c .info (fun t =>
    if 0xC0 ≤ lid ∧ isPf c.fn = false then t.done c .invalidLogPage
    else match t.logPage lid with
    | none => t.done c .invalidLogPage
    | some p =>
      if p.len < offset then t.done c .invalidField
      else (t.modHost fun h => { h with draws := h.draws + 1 }).answer c (.data (p.read offset len))) s)

/-! ## Features -/

/-- A vendor feature: its current, default and saved value. -/
def State.vendorFeature (s : State) (fn fid : Nat) : Option (Nat × Nat × Nat) :=
  match fid with
  | 0xC0 => some (s.host.earlyWarning.toNat, 0x0A1402FF, s.mgmt.norEarlyWarning.toNat)
  | 0xC1 => some (s.host.patrolDays, 7, s.mgmt.norPatrol)
  | 0xC2 => some (b2n s.host.dual, 0, b2n s.mgmt.norDual)
  | 0xC3 => some (b2n s.host.encryptNew, 1, b2n s.mgmt.norEncrypt)
  | 0xC4 => some (if fn / 17 = 0 then (s.host.powerCap0, 650, s.mgmt.norCap0)
      else (s.host.powerCap1, 650, s.mgmt.norCap1))
  | 0x02 => some ((s.ctl fn).ps, 0, tget 0 s.mgmt.norPs fn)
  | 0x11 => some (b2n (s.ctl fn).permissive, 1, 1)
  | _ => none

/-- GET_FEATURES (R281, R285, R290, R405, R421): select 0 current, 1 default, 2 saved. What NVMe lays down for
other features and selects is free (notes/assumptions/24.md). -/
def execGetFeatures (c : Src) (fid select : Nat) (s : State) : Host.Outcome State Fault Refusal :=
  .next (hostCmd c .operational (fun t =>
    match t.vendorFeature c.fn fid, select with
    | some v, 0 => t.doneDw c .success (BitVec.ofNat 32 v.1) 0
    | some v, 1 => t.doneDw c .success (BitVec.ofNat 32 v.2.1) 0
    | some v, 2 => t.doneDw c .success (BitVec.ofNat 32 v.2.2) 0
    | _, _ => (t.modHost fun h => { h with draws := h.draws + 1 }).doneDw c .success
        (Config.standardFeature t.host.draws fid select) 0) s)

/-- True when Dword 11 of Media Early Warning has spare_warn 5-50, wear_step 1-25 and zeros in its reserved bits
(R285). -/
def earlyWarningOk (w : Word) : Bool :=
  fld w 15 10 == 0 && fld w 23 23 == 0 && fld w 31 29 == 0 && decide (5 ≤ fld w 22 16) &&
    decide (fld w 22 16 ≤ 50) && decide (1 ≤ fld w 28 24) && decide (fld w 28 24 ≤ 25)

/-- MEDIA_EARLY_WARNING (R285): vendor Feature 0xC0. -/
def execMediaEarlyWarning (c : Src) (dw11 : Word) (save : Bool) (s : State) : Host.Outcome State Fault Refusal :=
  .next (hostCmd c .operational (fun t =>
    if earlyWarningOk dw11 then
      ((t.modHost fun h => { h with earlyWarning := dw11 }).modMgmt fun m => { m with
        norEarlyWarning := if save then dw11 else m.norEarlyWarning }).done c .success
    else t.done c .invalidField) s)

/-- PATROL_PERIOD (R281): vendor Feature 0xC1, 2 to 28 days. -/
def execPatrolPeriod (c : Src) (dw11 : Word) (save : Bool) (s : State) : Host.Outcome State Fault Refusal :=
  .next (hostCmd c .operational (fun t =>
    if 2 ≤ dw11.toNat ∧ dw11.toNat ≤ 28 then
      ((t.modHost fun h => { h with patrolDays := dw11.toNat }).modMgmt fun m => { m with
        norPatrol := if save then dw11.toNat else m.norPatrol }).done c .success
    else t.done c .invalidField) s)

/-- PORT_MODE (R290): vendor Feature 0xC2, with Save only; it takes effect at the next cold reset. -/
def execPortMode (c : Src) (dw11 : Word) (save : Bool) (s : State) : Host.Outcome State Fault Refusal :=
  .next (hostCmd c .operational (fun t =>
    if save = true ∧ dw11.toNat ≤ 1 then
      (t.modMgmt fun m => { m with norDual := decide (dw11.toNat = 1) }).done c .success
    else t.done c .invalidField) s)

/-- ENCRYPT_NEW_NAMESPACES (R405): vendor Feature 0xC3. -/
def execEncryptNewNamespaces (c : Src) (dw11 : Word) (save : Bool) (s : State) :
    Host.Outcome State Fault Refusal :=
  .next (hostCmd c .operational (fun t =>
    if dw11.toNat ≤ 1 then
      let b := decide (dw11.toNat = 1)
      ((t.modHost fun h => { h with encryptNew := b }).modMgmt fun m => { m with
        norEncrypt := if save then b else m.norEncrypt }).done c .success
    else t.done c .invalidField) s)

/-- POWER_CAP (R421): vendor Feature 0xC4, 250 to 650 W, for the port of the issuer. -/
def execPowerCap (c : Src) (dw11 : Word) (save : Bool) (s : State) : Host.Outcome State Fault Refusal :=
  .next (hostCmd c .operational (fun t =>
    let w := dw11.toNat
    if 250 ≤ w ∧ w ≤ 650 then
      if c.fn / 17 = 0 then
        ((t.modHost fun h => { h with powerCap0 := w }).modMgmt fun m => { m with
          norCap0 := if save then w else m.norCap0 }).done c .success
      else
        ((t.modHost fun h => { h with powerCap1 := w }).modMgmt fun m => { m with
          norCap1 := if save then w else m.norCap1 }).done c .success
    else t.done c .invalidField) s)

/-! ## Crypto-erase (R407) -/

/-- The next key of the generator. -/
def State.drawKey (s : State) : State := s.modSec fun x => { x with nextKey := x.nextKey + 1 }

/-- A namespace crypto-erased: a new key where it has one, and every logical block unmapped. -/
def State.eraseNs (s : State) (nsid : Nat) : State :=
  let k := s.sec.nextKey
  let s1 := if (s.ns nsid).encrypted then (s.modNs nsid fun n => { n with key := k }).drawKey else s
  s1.commitGroup [.dealloc nsid 0 (2 ^ 40)]

/-- FORMAT_NVM (R407): Secure Erase Settings 2 crypto-erases one encrypted namespace; it stays available at
read-only end of life (R287). -/
def execFormatNvm (c : Src) (nsid ses : Nat) (s : State) : Host.Outcome State Fault Refusal :=
  .next (hostCmd c .operational (fun t =>
    if t.nsUsable c.fn nsid = false then t.done c .invalidNamespace
    else if ses ≠ 2 then t.done c .invalidField
    else if (t.ns nsid).encrypted = false then t.done c .invalidFormat
    else (t.eraseNs nsid).done c .success) s)

/-- An extent whose T3 copy has lost its key: a home in T3 is gone, and a move into T3 starts again. -/
def Extent.t3Erased (e : Extent) : Extent :=
  { e with
    homeTier := if e.homeTier = 3 then 0 else e.homeTier
    copyDirty := if e.homeTier = 3 then [] else e.copyDirty
    landed := if e.destTier = 3 then [] else e.landed }

/-- The contents of an extent whose only copy lies in T3 after a crypto-erase of T3: the spec states none, so they
are free (notes/assumptions/26.md). Tiles that have landed higher keep theirs. -/
def State.scrambleExtent (s : State) (d j : Nat) : State :=
  let e := s.extent d j
  let bytes := fun a => (List.range tileBytes).map fun i => Config.erasedByte s.host.draws (a + i)
  if e.copyTier = 3 ∧ (e.st = 1 ∨ e.st = 2) then
    (((List.range e.length).filter fun t => !e.landed.contains t).map (tileAddr d j)).foldl (fun u a =>
      u.modTs fun x => { x with mem := x.mem.putBytes a (bytes a) }) s
  else s

/-- T3 of face die `d` crypto-erased: a new key. -/
def State.eraseT3 (s : State) (d : Nat) : State :=
  let s1 := (s.die d).slots.foldl (fun t e => t.scrambleExtent d e.1) s
  let s2 := s1.modDie d fun x => { x with
    t3Key := s.sec.nextKey, slots := x.slots.map fun e => (e.1, e.2.t3Erased) }
  s2.drawKey

/-- The checkpoint region crypto-erased: a new key, and its images are gone; a flash stream that runs is abandoned,
for a reason that Table 14.4a does not name. -/
def State.eraseCkpt (s : State) : State :=
  ((s.abandonStream false (Config.eraseAbandon % 256)).modCkpt fun c => { c with
    flashCommitted := 0, flashCut0 := 0, flashCut1 := 0, flashFrames0 := [], flashFrames1 := [] }).drawKey

/-- Sanitize's crypto erase: every namespace, the checkpoint region and T3 (R407). -/
def State.sanitize (s : State) : State :=
  let ids := (s.host.namespaces.filter fun e => e.2.active).map (·.1)
  let s1 := (ids.foldl State.eraseNs s).eraseCkpt
  ((s1.eraseT3 0).eraseT3 1).modHost fun h => { h with draws := h.draws + 1 }

/-- SANITIZE (R407): action 4, crypto erase. -/
def execSanitize (c : Src) (action : Nat) (s : State) : Host.Outcome State Fault Refusal :=
  .next (hostCmd c .operational (fun t =>
    if action = 4 then (t.sanitize.done c .success).settle else t.done c .invalidField) s)

/-! ## Namespace management (R297) -/

/-- Bytes that a namespace of `blocks` logical blocks allocates: whole GiB. -/
def allocation (blocks : Nat) : Nat := 1073741824 * ceilDiv blocks 262144

/-- Creation of a namespace, encrypted as Feature 0xC3 says (R405). -/
def State.createNs (s : State) (c : Src) (blocks : Nat) : State :=
  if s.flash.readOnly then s.done c .namespaceWriteProtected
  else if blocks = 0 then s.done c .invalidField
  else if s.nvmCapacity < s.allocated + allocation blocks then s.done c .insufficientCapacity
  else match firstIdx (fun i => !(s.ns (i + 1)).active) 64 with
  | none => s.done c .namespaceIdUnavailable
  | some i =>
    let n : Ns := { active := true, blocks := blocks, encrypted := s.host.encryptNew
                    key := if s.host.encryptNew then s.sec.nextKey else 0 }
    let s1 := s.modNs (i + 1) fun _ => n
    (if s.host.encryptNew then s1.drawKey else s1).doneDw c .success (BitVec.ofNat 32 (i + 1)) 0

/-- Writes under way to a namespace that goes: they take no effect and end. -/
def State.endWrites (s : State) (nsid : Nat) : State :=
  let ops := ((s.flash.parts.filter fun p => p.nsid == nsid && decide (p.stage < 4)).map (·.op)).eraseDups
  let s1 := ops.foldl (fun t i => t.finish i .invalidNamespace) (s.voidParts ops)
  s1.freeBuffers.serveFlushes

/-- A namespace deleted: its writes end, its blocks are unmapped, its key is gone. -/
def State.deleteNs (s : State) (nsid : Nat) : State :=
  ((s.endWrites nsid).commitGroup [.dealloc nsid 0 (2 ^ 40)]).modHost fun h => { h with
    namespaces := tdel h.namespaces nsid }

/-- NAMESPACE_MANAGEMENT (R297). -/
def execNamespaceManagement (c : Src) (sel nsid blocks : Nat) (s : State) : Host.Outcome State Fault Refusal :=
  .next (hostCmd c .operational (fun t =>
    if sel = 0 then t.createNs c blocks
    else if sel ≠ 1 then t.done c .invalidField
    else if nsid = 0xFFFFFFFF then
      (((t.host.namespaces.filter fun e => e.2.active).map (·.1)).foldl State.deleteNs t).done c .success
    else if (t.ns nsid).active then (t.deleteNs nsid).done c .success
    else t.done c .invalidNamespace) s)

/-- NAMESPACE_ATTACHMENT (R297): any controller of either port. -/
def execNamespaceAttachment (c : Src) (sel nsid : Nat) (fns : List Nat) (s : State) :
    Host.Outcome State Fault Refusal :=
  .next (hostCmd c .operational (fun t =>
    let now := (t.ns nsid).attached
    if (t.ns nsid).active = false then t.done c .invalidNamespace
    else if 1 < sel ∨ fns.isEmpty = true ∨ (fns.any fun f => !t.hasFn f) = true then t.done c .invalidField
    else if sel = 0 then
      if fns.any now.contains then t.done c .alreadyAttached
      else (t.modNs nsid fun n => { n with attached := n.attached ++ fns.eraseDups }).done c .success
    else if fns.any fun f => !now.contains f then t.done c .notAttached
    else (t.modNs nsid fun n => { n with attached := n.attached.filter fun f => !fns.contains f }).done c .success) s)

end Sys2Proof.Machine
end

