-- ==== Sys2Proof/Machine/Arrays.lean ====
section
/-! DEFINITION. The matrix arrays of a bench: code loads, streams and drains (R87-R104, R125-R127,
R143). -/

namespace Sys2Proof.Machine

/-- The operation at the head of an array's queue taken off it. -/
def State.popArray (s : State) (b a : Nat) : State :=
  s.modArr b a fun x => { x with queue := x.queue.drop 1 }

/-! ## Loads (R90-R93, R143) -/

/-- The codes of the tile at `addr`, whose header `h` holds, begin to move into array `a` of bench `b` for logical
array `l` (R91). `reload` marks the reload of a shared array, whose operation stays at the head of the queue. -/
def State.beginLoad (s : State) (b a l addr : Nat) (inT0 : Bool) (pc : Nat) (h : Mem) (reload : Bool) : State :=
  s.benchRead { bench := b, pc := pc, unit := 2 + a } (if inT0 then 1 else 2) addr (imageBytes (h.getLe (addr + 4) 1)) true fun m t =>
    let u := if reload then t else t.popArray b a
    u.modArr b a fun x => { x with load := some { tile := tileOf h m addr, logical := l, reload := reload } }

/-- The reload of a shared array's tile (R143): its header read and checked (R64), then its codes. -/
def State.beginReload (s : State) (b a l addr : Nat) (inT0 : Bool) (pc : Nat) : State :=
  let site : Site := { bench := b, pc := pc, unit := 2 + a }
  s.benchRead site (if inT0 then 1 else 2) addr tileHeader true fun m t =>
    if tileHeaderOk m addr then t.beginLoad b a l addr inT0 pc (Mem.copyIn [] addr m addr tileHeader) true
    else t.siteFault site 0x07

/-- The load at the head of an array's queue starts once its header is in the buffer (R91). -/
def State.startLoad (s : State) (b a : Nat) : State :=
  match (s.arr b a).queue.head? with
  | some (.load l addr t0 pc (some h)) => s.beginLoad b a l addr t0 pc h false
  | _ => s

/-- ARRAY_LOAD (R90, R91, R143): the load at the head of an array's queue starts, or the reload that a
STREAM on a shared array needs first. It waits while another load runs. -/
def execArrayLoad (bench array : Nat) (s : State) : Host.Outcome State Fault Refusal :=
  let x := s.arr bench array
  .next (if x.load.isSome ∨ s.benchAwake bench = false then s
    else match x.queue.head? with
    | some (.load ..) => s.after ((s.takeHeader bench array 0).startLoad bench array)
    | some (.stream l _ _ _ _ _ _ _ tile pc) =>
      if x.owner = some l then s
      else match tile with
      | some (addr, t0) => s.after (s.beginReload bench array l addr t0 pc)
      | none => s
    | _ => s)

/-- LOAD_LATCH (R90, R114): every cell latches its new code, the codebook switches with it, and the load's
256 cycles and its `wait` cycles are counted. -/
def execLoadLatch (bench array wait : Nat) (s : State) : Host.Outcome State Fault Refusal :=
  .next (match (s.arr bench array).load with
  | none => s
  | some r =>
    if s.benchAwake bench then
      s.modArr bench array fun x => { x with
        tile := r.tile, psum := r.tile.shifted, owner := some r.logical, load := none
        loadCyc := x.loadCyc + BitVec.ofNat 64 (256 + wait) }
    else s)

/-! ## Streams (R94-R100) -/

/-- The bank after a stream's tile has met its latches (R99, R100): channel scales and n_count latched by
the first tile, the tile count raised. -/
def Bank.withTile (k : Bank) (t : TileRegs) : Bank :=
  { k with chan := some (k.chan.getD (t.scales, t.nCount)), tiles := k.tiles + 1 }

/-- The first row of a stream whose descriptor fails the check of R69, if any. -/
def badRow (m : Mem) (a f n fmt : Nat) : Option Nat :=
  firstIdx (fun j => !rowOk m a (f + j) fmt) n

/-- The first row of a stream in add mode whose token scale differs from the latch of its accumulator
row (R99). -/
def badScale (k : Bank) (m : Mem) (a f acc n : Nat) : Option Nat :=
  firstIdx (fun j => thas k.tokScale (acc + j) &&
    tget 0 k.tokScale (acc + j) != m.word (rowDesc a (f + j))) n

/-- Row `j` of a stream added, or written in no-add mode, into the bank (R99, R100). -/
def Bank.takeRow (k : Bank) (t : TileRegs) (m : Mem) (a f acc fmt : Nat) (noAdd : Bool) (j : Nat) : Bank :=
  let ds := rowDiffs m a (f + j) fmt
  let row := acc + j
  { k with
    tokScale := tset k.tokScale row (m.word (rowDesc a (f + j)))
    acc := (List.range 256).foldl (fun c n =>
      let v : Word := BitVec.ofInt 32 (t.column n ds)
      tset c (256 * row + n) (if noAdd then v else tget 0 c (256 * row + n) + v)) k.acc }

/-- Token rows fed by array `a` of bench `b` counted (Table 4.9). -/
def State.countRows (s : State) (b a n : Nat) : State :=
  s.modArr b a fun x => { x with rows := x.rows + BitVec.ofNat 64 n }

/-- The stream at the head of an array's queue, once its interlocks have cleared: the checks of R97 in
their order, then its rows. A row that fails the check of R69 as it is fed is not counted among the rows that
Table 4.9 counts (DESIGN CHOICE, notes/assumptions/103.md). -/
def State.feed (s : State) (b a l addr bank f acc n fmt : Nat) (noAdd : Bool) (pc : Nat)
    (t : TileRegs) : State :=
  let site : Site := { bench := b, pc := pc, unit := 2 + a }
  s.benchRead site 1 addr 0x900 false fun m u =>
    let k := tget {} (u.arr b a).banks bank
    if actHeaderOk m addr f n acc fmt = false then u.siteFault site 0x08
    else if k.chan.any fun c => c != (t.scales, t.nCount) then
      u.siteFault site 0x09
    else if 256 ≤ k.tiles then u.siteFault site 0x0A
    else u.benchRead site 1 (addr + 0x900 + 256 * f) (256 * (n + 255)) false fun m2 v =>
      match badRow m2 addr f n fmt with
      | some j => (v.countRows b a j).siteFault site 0x08
      | none =>
        match (if noAdd then none else badScale k m2 addr f acc n) with
        | some _ => (v.countRows b a n).siteFault site 0x09
        | none =>
          let k2 := (List.range n).foldl (fun y j => y.takeRow t m2 addr f acc fmt noAdd j) (k.withTile t)
          ((v.popArray b a).countRows b a n).modArr b a fun x => { x with
            banks := tset x.banks bank k2
            psum := t.partials (rowDiffs m2 addr (f + n - 1) fmt)
            streams := x.streams ++ [{ bank := bank, fmt := fmt, first := f, acc := acc, n := n
                                       noAdd := noAdd, act := addr, logical := l, pc := pc }] }

/-- ARRAY_STREAM (R96-R100): the stream at the head of an array's queue starts once no load runs, the
array holds its logical array's codes and its bank is not being drained. A residue mismatch resets the
region and is counted (R89). -/
def execArrayStream (bench array : Nat) (residueOk : Bool) (s : State) :
    Host.Outcome State Fault Refusal :=
  let x := s.arr bench array
  .next (match x.queue.head? with
  | some (.stream l addr bank f acc n fmt noAdd _ pc) =>
    if x.load.isSome ∨ x.owner ≠ some l ∨ x.drain = some bank ∨ s.benchAwake bench = false then s
    else if residueOk then s.after (s.feed bench array l addr bank f acc n fmt noAdd pc x.tile)
    else s.after ((s.unitFailed 0x01 (4 * bench + array)).unitError bench)
  | _ => s)

/-- STREAM_END (R88, R102): the oldest stream of an array makes its last accumulator add. Behind its last token only
tables held at zero pass, so the partial-sum registers are 0 once no other stream follows. -/
def execStreamEnd (bench array : Nat) (s : State) : Host.Outcome State Fault Refusal :=
  .next (if s.benchAwake bench ∧ (s.arr bench array).streams ≠ [] then
      s.modArr bench array fun x => { x with
        streams := x.streams.drop 1, psum := if x.streams.length ≤ 1 then [] else x.psum }
    else s)

/-! ## Drains (R78-R81, R101, R147) -/

/-- The outputs of accumulator row `row`, by column: none where a column is not written (R81, R101). -/
def Bank.drainRow (k : Bank) (d : DrainBlock) (fmt row : Nat) (bias : Nat → Word) : List (Option Drained) :=
  let n := match k.chan with | some c => c.2 | none => 256
  (List.range 256).map fun c =>
    if d.mask.getD c false ∧ c < n then
      let scales := match k.chan with
        | some ch => if thas k.tokScale row then some (tget 0 k.tokScale row, ch.1.getD c 0) else none
        | none => none
      some (drainValue fmt d.ro d.zo (bias c) scales (tget 0 k.acc (256 * row + c)))
    else none

/-- What a drain writes for output row `i` at `out`: a column not written leaves its bytes unchanged. -/
def drainWrites (out fmt i : Nat) (l : List (Option Drained)) : List (Nat × List Byte) :=
  l.zipIdx.filterMap fun e => e.1.map fun v =>
    (out + (256 * i + e.2) * drainBytes fmt, leBytes (drainBytes fmt) v.bits)

/-- The row descriptor that a drain writes for one output row (R101). -/
def drainDesc (d : DrainBlock) (fmt : Nat) (l : List (Option Drained)) : List Byte :=
  let z := if fmt = 1 then d.zo else 0
  let w := l.filterMap id
  descBytes (Fp.divBits Fp.one d.ro) z fmt (w.any fun v => !v.finite) (w.all fun v => v.bits == z)

/-- The conditions and the clamp count of a drain's outputs noted (R78, Table 3.8). -/
def State.noteDrain (s : State) (b : Nat) (l : List Drained) : State :=
  let n := (l.filter (·.clamped)).length
  s.modBench b fun x => { x.flag (l.foldl (fun f v => f.or v.flags) {}) with
    satCount := BitVec.ofNat 32 (capNat 0xFFFFFFFF (x.satCount.toNat + n)) }

/-- A bias read for a drain: the vector at `bias_addr`, or 0.0 without one (R78). -/
def DrainBlock.biasAt (d : DrainBlock) (m : Mem) (c : Nat) : Word :=
  if d.bias then m.word (d.biasAddr + 4 * c) else 0

/-- The drain at the head of an array's queue: its block and its rows checked, its outputs written. -/
def State.pour (s : State) (b a block out bank first n fmt pc : Nat) : State :=
  let site : Site := { bench := b, pc := pc, unit := 2 + a }
  s.benchRead site 1 block 64 false fun m t =>
    let d := drainBlockAt m block
    if drainBlockOk m block fmt = false ∨ 256 < first + n then t.siteFault site 0x08
    else
      let k := tget {} (t.arr b a).banks bank
      let go := fun (u : State) =>
        let rows := (List.range n).map fun i => k.drainRow d fmt (first + i) (d.biasAt (u.bench b).t0)
        let puts := rows.zipIdx.flatMap fun e => drainWrites out fmt e.2 e.1
        let descs := rows.flatMap fun l => drainDesc d fmt l
        let close := fun (v : State) =>
          ((v.noteDrain b (rows.flatMap fun l => l.filterMap id)).popArray b a).modArr b a fun x =>
            { x with drain := some bank }
        if 0x800000 < out + 256 * n * drainBytes fmt then u.siteFault site 0x0B
        else State.benchWrites site 1 (fun v =>
          if fmt ≤ 2 then v.benchWrite site 1 d.descAddr descs close else close v) puts u
      if d.bias then t.benchRead site 1 d.biasAddr 1024 false fun _ u => go u else go t

/-- ARRAY_DRAIN (R101, R102): the drain at the head of an array's queue starts once every stream into its
bank has made its last add and no other drain runs. -/
def execArrayDrain (bench array : Nat) (s : State) : Host.Outcome State Fault Refusal :=
  let x := s.arr bench array
  .next (match x.queue.head? with
  | some (.drain _ block out bank first n fmt pc) =>
    if (x.streams.any fun r => r.bank == bank) ∨ x.drain.isSome ∨ s.benchAwake bench = false then s
    else s.after (s.pour bench array block out bank first n fmt pc)
  | _ => s)

/-- DRAIN_END (R101): all 256 rows of the bank zeroed, its latches cleared and its tile count 0. -/
def execDrainEnd (bench array : Nat) (s : State) : Host.Outcome State Fault Refusal :=
  .next (match (s.arr bench array).drain with
  | none => s
  | some bank =>
    if s.benchAwake bench then
      s.modArr bench array fun x => { x with drain := none, banks := tdel x.banks bank }
    else s)

end Sys2Proof.Machine
end

