-- ==== Sys2Proof/Machine/Checkpoint.lean ====
section
/-! DEFINITION. Checkpoint commands and events: the reserve and the set, cuts, waits and restores, the
flash stream and takeover (R347-R366). -/

namespace Sys2Proof.Machine

/-- The cut number that Command Dwords 10 and 11 hold. -/
def cutOf (dw10 dw11 : Word) : Nat := dw10.toNat + 2 ^ 32 * dw11.toNat

/-! ## The set (R347, R348) -/

/-- CHECKPOINT_RESERVE (R348): stored, in effect from the next cold reset. -/
def execCheckpointReserve (c : Src) (dw10 : Word) (s : State) : Host.Outcome State Fault Refusal :=
  .next (pfCmd c .operational (fun t =>
    if 128 < dw10.toNat then t.done c .invalidField
    else (t.modMgmt fun m => { m with norReserve := dw10.toNat }).done c .success) s)

/-- Entry `i` of a manifest (Table 14.2). -/
def manifestEntry (m : Mem) (i : Nat) : SetEntry :=
  { addr := m.getLe (32 + 16 * i) 8, cls := m.getLe (32 + 16 * i + 8) 1
    replica := m.getLe (32 + 16 * i + 10) 2 }

/-- The entries of a manifest. -/
def manifestEntries (m : Mem) : List SetEntry := (List.range (m.getLe 2 2)).map (manifestEntry m)

/-- The checks of R348 on a manifest of `len` bytes issued by function `fn`. -/
def State.manifestOk (s : State) (fn : Nat) (m : Mem) (len : Nat) : Bool :=
  let n := m.getLe 2 2
  let es := manifestEntries m
  let cursors := es.filter fun e => e.cls == 2
  m.getLe 0 1 == 5 && m.getLe 1 1 == 1 && decide (1 ≤ n) && decide (n ≤ 4096) && len == 32 + 16 * n &&
    m.zeroAt 4 4 && m.zeroAt 16 16 &&
    ((List.range n).all fun i =>
      let e := manifestEntry m i
      let x := s.entryExtent e
      isBase e.addr && decide (1 ≤ e.cls) && decide (e.cls ≤ 4) && m.zeroAt (32 + 16 * i + 9) 1 &&
        m.zeroAt (32 + 16 * i + 12) 4 && decide (e.replica < 4096) && (e.cls == 3 || e.replica == 0) &&
        (x.st == 1 || x.st == 2) && (pfGroup fn).contains x.owner) &&
    decide (es.map (·.addr)).Nodup && decide (cursors.length ≤ 1) &&
    cursors.all (fun e => decide ((s.entryExtent e).length ≤ 1)) &&
    decide (2 * ((es.filter isSaved).foldl (fun k e => k + (s.entryExtent e).length) 0) ≤
      2 * reservePages s.ts.reserveGb)

/-- CHECKPOINT_CONFIGURE (R348). -/
def execCheckpointConfigure (c : Src) (dw10 dw11 dw12 dw13 : Word) (manifest : Buf) (s : State) :
    Host.Outcome State Fault Refusal :=
  .next (pfCmd c .operational (fun t =>
    if t.ckpt.phase = 1 ∨ t.ckpt.phase = 3 ∨ t.ckpt.buddy.isSome = true ∨ t.ckpt.flash.isSome = true then
      t.done c .commandSequenceError
    else if fld dw10 31 3 ≠ 0 ∨ 86400 < dw11.toNat ∨ 604800 < dw12.toNat ∨
        (dw13 ≠ 0 ∧ (manifest.len ≠ dw13.toNat ∨ t.manifestOk c.fn manifest.bytes manifest.len = false)) then
      t.done c .invalidField
    else
      let t1 := t.modCkpt fun k => { k with
        autoCut := bitOf dw10.toNat 0, flashEnable := bitOf dw10.toNat 1, autoTakeover := bitOf dw10.toNat 2
        prior := if dw11 = 0 then 1200 else dw11.toNat, floor := dw12.toNat, fn := c.fn }
      let t2 :=
        if dw13 = 0 then t1.modCkpt fun k => { k with attached := false, setEntries := [], owed := [] }
        else t1.modCkpt fun k => { k with
          attached := true, setEntries := manifestEntries manifest.bytes
          nextFull := true, owed := [], lastCutAt := t.now, dueRaised := false }
      t2.done c .success) s)

/-! ## Cuts (R350, R361, R365) -/

/-- CHECKPOINT_CUT (R350, R365): steps 1 and 2 begin. Without a set, during another cut, a restore or a
takeover it ends with Command Sequence Error. -/
def execCheckpointCut (c : Src) (dw10 dw11 dw12 : Word) (s : State) : Host.Outcome State Fault Refusal :=
  .next (pfCmd c .operational (fun t =>
    let n := cutOf dw10 dw11
    if fld dw12 31 1 ≠ 0 ∨ n = 0 ∨ n ≤ t.ckpt.lastCut then t.done c .invalidField
    else if t.ckpt.attached = false ∨ t.ckpt.phase ≠ 0 then t.done c .commandSequenceError
    else (t.startOp c (.cut n (bitOf dw12.toNat 0))).beginCut n (some t.host.nextOp)
      (bitOf dw12.toNat 0)) s)

/-- CUT_DUE (R361): T has passed since the previous cut and the previous buddy stream has ended. The module
takes the cut in automatic mode, otherwise it raises event 0x40, once. -/
def execCutDue (s : State) : Host.Outcome State Fault Refusal :=
  let k := s.ckpt
  .next (if k.attached = false ∨ k.phase ≠ 0 ∨ k.buddy.isSome = true ∨
      (s.now - k.lastCutAt) / ticksPerMs < k.interval then s
  else if k.autoCut then s.beginCut (k.lastCut + 1) none k.flashEnable
  else if k.dueRaised then s
  else (s.modCkpt fun k => { k with dueRaised := true }).raise 0x40 0xC5)

/-- CUT_PROTECT (R350 steps 3 and 4). -/
def execCutProtect (s : State) : Host.Outcome State Fault Refusal :=
  .next (if s.cutReady then s.takeCut.settle else s)

/-- CHECKPOINT_WAIT (R365). -/
def execCheckpointWait (c : Src) (dw10 dw11 : Word) (s : State) : Host.Outcome State Fault Refusal :=
  .next (pfCmd c .operational (fun t => (t.startOp c (.ckptWait (cutOf dw10 dw11))).serveCkptWaits) s)

/-- CHECKPOINT_RESTORE (R363): new executes of the owning functions are held until it ends. -/
def execCheckpointRestore (c : Src) (dw10 dw11 dw12 : Word) (s : State) :
    Host.Outcome State Fault Refusal :=
  .next (pfCmd c .operational (fun t =>
    if fld dw12 31 2 ≠ 0 then t.done c .invalidField
    else if t.ckpt.phase ≠ 0 then t.done c .commandSequenceError
    else (t.modCkpt fun k => { k with phase := 3, holdFrom := t.host.nextOp, holdFns := [] }).startTry c
      (.restore (cutOf dw10 dw11) (fld dw12 1 0))) s)

/-- INTERRUPTION_REPORT (R361). -/
def execInterruptionReport (c : Src) (s : State) : Host.Outcome State Fault Refusal :=
  .next (pfCmd c .operational (fun t => t.interruption.done c .success) s)

/-! ## The flash stream (R360) -/

/-- A tile written into the slot that does not hold the latest flash checkpoint. -/
def Ckpt.flashFrame (k : Ckpt) (f : Frame) : Ckpt :=
  if k.flashSlot = 0 then
    { k with flashCut1 := 0, flashFrames1 := (if k.flashCut1 = 0 then k.flashFrames1 else []) ++ [f] }
  else { k with flashCut0 := 0, flashFrames0 := (if k.flashCut0 = 0 then k.flashFrames0 else []) ++ [f] }

/-- The slot written counts as the latest flash checkpoint, of cut `n`. -/
def Ckpt.flashCommit (k : Ckpt) (n : Nat) : Ckpt :=
  let k1 := { k with flash := none, flashCommitted := n, flashSlot := 1 - k.flashSlot }
  if k.flashSlot = 0 then { k1 with flashCut1 := n } else { k1 with flashCut0 := n }

/-- FLASH_STREAM_PAGE_READ_BACK (R261, R360): the next page of the flash stream has been programmed and read back, with at
most `worst` bits corrected in a codeword; three failures of one page abandon the stream. A tile is taken with the last of
its four pages. -/
def execFlashStreamPageReadBack (worst : Option Nat) (s : State) : Host.Outcome State Fault Refusal :=
  .next (match s.ckpt.flash with
  | none => s
  | some b =>
    let s1 := s.programCkpt
    if readBackOk worst = false then
      if 3 ≤ b.fails + 1 then (s1.abandonStream false 0x05).settle
      else s1.modCkpt fun k => { k with flash := some { b with fails := b.fails + 1 } }
    else
      match s.nextTaken b.todo with
      | none => s1.modCkpt fun k => { k with flash := some { b with fails := 0, committing := true } }
      | some x =>
        if b.page < 3 then
          s1.modCkpt fun k => { k with flash := some { b with fails := 0, page := b.page + 1 } }
        else
          s1.streamRead x fun t =>
            let f : Frame := { addr := tileAddr x.1 x.2.1 x.2.2, cut := b.cut, data := t.tileContents x }
            let rest := b.todo.filter fun y => y != x
            let t1 := t.modCkpt fun k => { k.flashFrame f with
              flash := some { b with fails := 0, page := 0, todo := rest } }
            (t1.releaseTile x).settle)

/-- FLASH_CHECKPOINT_COMMIT (R360): the commit record is read back. -/
def execFlashCheckpointCommit (s : State) : Host.Outcome State Fault Refusal :=
  .next (match s.ckpt.flash with
  | none => s
  | some b =>
    if b.todo.isEmpty then
      ((s.programCkpt.modCkpt fun k => k.flashCommit b.cut).streamEnded b.cut b.since 0).settle
    else s)

/-! ## Takeover (R364) -/

/-- TAKEOVER (R364, R365): on a spare, for coordinates of its board. -/
def execTakeover (c : Src) (dw10 : Word) (s : State) : Host.Outcome State Fault Refusal :=
  .next (pfCmd c .operational (fun t =>
    let f := t.fabric
    let x := fld dw10 11 0
    if fld dw10 31 12 ≠ 0 then t.done c .invalidField
    else if f.spare = false ∨ f.assumedHere.isSome = true ∨ t.ckpt.phase ≠ 0 then
      t.done c .commandSequenceError
    else if coordBoard x ≠ f.board then t.done c .invalidField
    else ((t.startOp c (.takeover x)).beginTakeover x (some t.host.nextOp)).stream) s)

/-- TAKEOVER_COPY_DONE (R364 steps 2 and 3): the partner's frames are copied, or it holds no committed
image; the spare proposes SPARE_ASSUME. -/
def execTakeoverCopyDone (committed previous : Nat) (manifests : List (Nat × List SetEntry))
    (frames : List Frame) (s : State) : Host.Outcome State Fault Refusal :=
  .next (match s.ckpt.takeoverCoord with
  | none => s
  | some x =>
    if s.ckpt.phase ≠ 4 then s
    else
      let s1 := (if committed = 0 then s else frames.foldl State.frameWritten s).modCkpt fun k => { k with
        localFrames := if committed = 0 then [] else frames
        localCuts := if committed = 0 then [] else [committed, previous].filter fun n => n != 0
        localManifests := if committed = 0 then [] else manifests }
      s1.propose s.fabric.ident 3 (x + 8192 * s.fabric.selfIdent))

end Sys2Proof.Machine
end

