-- ==== Sys2Proof/Machine/Mi.lean ====
section
/-! DEFINITION. The NVMe-MI requests that the management core answers (R447). What their data structures hold the
spec leaves to NVMe-MI 1.2 (notes/assumptions/24.md). -/

namespace Sys2Proof.Machine

/-- A response of the management endpoint. -/
def State.mi (s : State) (r : Reply) : State := s.modMgmt fun m => { m with miReplies := m.miReplies ++ [r] }

/-- True while the management core serves NVMe-MI: it has power, its firmware runs and it is not halted (R429,
R446). Thermal shutdown does not stop it (R426). -/
def State.miServed (s : State) : Bool :=
  (s.power.on || s.power.standby) && s.sec.booted && !s.mgmt.halted

/-- A request that R408 governs: answered by `f` where the life-cycle state permits operational commands, with an
error elsewhere. -/
def miRequest (f : State → State) (s : State) : State :=
  if s.miServed then (if permits .operational s.lifeCycle then f s else s.mi .error) else s

/-- A response whose bytes NVMe-MI lays down, with the draw counted. -/
def State.miFree (s : State) (request operand : Nat) : State :=
  (s.modHost fun h => { h with draws := h.draws + 1 }).mi
    (.data (Buf.ofBytes (Config.miStructure s.host.draws request operand)))

/-- READ_NVME_MI_DATA_STRUCTURE (R447). -/
def execReadNvmeMiDataStructure (dtype : Nat) (s : State) : Host.Outcome State Fault Refusal :=
  .next (miRequest (fun t => t.miFree 0 dtype) s)

/-- SUBSYSTEM_HEALTH_STATUS_POLL (R447): answered in every life-cycle state and during thermal shutdown. -/
def execSubsystemHealthStatusPoll (s : State) : Host.Outcome State Fault Refusal :=
  .next (if s.miServed then s.miFree 1 0 else s)

/-- CONTROLLER_HEALTH_STATUS_POLL (R447): answered in every life-cycle state and during thermal shutdown. -/
def execControllerHealthStatusPoll (fn : Nat) (s : State) : Host.Outcome State Fault Refusal :=
  .next (if s.miServed then s.miFree 2 fn else s)

/-- CONFIGURATION_GET (R447). -/
def execConfigurationGet (id : Nat) (s : State) : Host.Outcome State Fault Refusal :=
  .next (miRequest (fun t => t.mi (.number (tget 0 t.mgmt.miConfig id).toNat)) s)

/-- CONFIGURATION_SET (R447). -/
def execConfigurationSet (id : Nat) (value : Word) (s : State) : Host.Outcome State Fault Refusal :=
  .next (miRequest (fun t =>
    (t.modMgmt fun m => { m with miConfig := tset m.miConfig id value }).mi (.number 0)) s)

/-- Bytes of VPD (R447). -/
def vpdBytes : Nat := 256

/-- VPD_READ (R447). -/
def execVpdRead (offset len : Nat) (s : State) : Host.Outcome State Fault Refusal :=
  .next (miRequest (fun t =>
    if offset + len ≤ vpdBytes then t.mi (.data { len := len, bytes := t.mgmt.vpd.slice offset len 0 })
    else t.mi .error) s)

/-- VPD_WRITE (R447). -/
def execVpdWrite (offset : Nat) (data : List Byte) (s : State) : Host.Outcome State Fault Refusal :=
  .next (miRequest (fun t =>
    if offset + data.length ≤ vpdBytes then
      (t.modMgmt fun m => { m with vpd := m.vpd.putBytes offset data }).mi (.number 0)
    else t.mi .error) s)

end Sys2Proof.Machine
end

