-- ==== Sys2Proof/Machine/Programs.lean ====
section
/-! DEFINITION. Computational programs: the checks and the binding of a bench program, and the commands
Load Program, Unload Program, Program Activation Management and Execute Program (R139-R144, R305-R307,
R401, R403, R404). -/

namespace Sys2Proof.Machine

/-! ## The image (Tables 5.8 and 5.9) -/

/-- A bench table entry with its logical bench number. -/
structure BenchEntry where
  logical : Nat
  region : Nat
  need : Nat
  bankMask : Nat
  groupMask : Nat
  jumps : Nat
  steps : Nat
  entry : Nat
  words : Nat
  descs : Nat
  stepAt : Nat
  wordAt : Nat
  descAt : Nat
  jumpAt : Nat
deriving DecidableEq, Repr

/-- The entry of logical bench `l`. -/
def benchEntry (m : Mem) (l : Nat) : BenchEntry :=
  let a := 0x140 + 64 * l
  { logical := l, region := m.getLe a 1, need := m.getLe (a + 1) 1, bankMask := m.getLe (a + 2) 2
    groupMask := m.getLe (a + 4) 1, jumps := m.getLe (a + 5) 1, steps := m.getLe (a + 6) 2
    entry := m.getLe (a + 8) 2, words := m.getLe (a + 0xA) 2, descs := m.getLe (a + 0xC) 2
    stepAt := m.getLe (a + 0x10) 4, wordAt := m.getLe (a + 0x14) 4, descAt := m.getLe (a + 0x18) 4
    jumpAt := m.getLe (a + 0x1C) 4 }

/-- Benches that a program declares. -/
def imageBenches (m : Mem) : Nat := m.getLe 2 2
/-- Barriers that a program declares. -/
def imageBarriers (m : Mem) : Nat := m.getLe 4 1
/-- The participants of barrier `i`. -/
def imageMask (m : Mem) (i : Nat) : Nat := m.getLe (0x40 + 8 * i) 8
/-- The entries of the bench table. -/
def imageEntries (m : Mem) : List BenchEntry := (List.range (imageBenches m)).map (benchEntry m)

/-- The header check of Table 5.8. -/
def imageHeaderOk (m : Mem) : Bool :=
  m.getLe 0 1 == 2 && m.getLe 1 1 == 1 && decide (1 ≤ imageBenches m) && decide (imageBenches m ≤ 40) &&
    decide (imageBarriers m ≤ 32) && m.zeroAt 5 3 && m.zeroAt 0xC 4 && m.zeroAt 0x18 40

/-- The barrier table check (R139): no bit at or above bench_count, zero at or above barrier_count. -/
def imageMasksOk (m : Mem) : Bool :=
  (List.range 32).all fun i =>
    decide (imageMask m i < 2 ^ imageBenches m) && (decide (i < imageBarriers m) || imageMask m i == 0)

/-- The check of a bench table entry (Table 5.9). -/
def benchEntryOk (m : Mem) (e : BenchEntry) : Bool :=
  let a := 0x140 + 64 * e.logical
  decide (e.region ≤ 7) && decide (e.need ≤ 4) && decide (e.bankMask < 2 ^ (4 * e.need)) &&
    decide (e.groupMask < 16) && decide (e.jumps ≤ 64) && decide (1 ≤ e.steps) &&
    decide (e.steps ≤ 16384) && decide (e.entry < e.steps) && decide (e.words ≤ 8192) &&
    decide (e.descs ≤ 256) && m.zeroAt (a + 0xE) 2 && m.zeroAt (a + 0x20) 32

/-- A section of `n` bytes at offset `o` in an image of `len` bytes. -/
def sectionOk (len o n : Nat) : Bool :=
  if n = 0 then o == 0 else decide (o % 64 = 0) && decide (o + n ≤ len)

/-- The section bounds of a bench. -/
def sectionsOk (len : Nat) (e : BenchEntry) : Bool :=
  sectionOk len e.stepAt (32 * e.steps) && sectionOk len e.wordAt (8 * e.words) &&
    sectionOk len e.descAt (32 * e.descs) && sectionOk len e.jumpAt (512 * e.jumps)

/-- The first structural failure, by logical bench (R140, order 1); the barrier table and every entry of the bench
table lie inside the image (R139). -/
def structureFault (m : Mem) (len : Nat) : Option Nat :=
  if imageHeaderOk m = false ∨ len < 0x140 ∨ imageMasksOk m = false then some 0
  else
    match (imageEntries m).find? fun e => decide (len < 0x180 + 64 * e.logical) || !benchEntryOk m e with
    | some e => some e.logical
    | none => ((imageEntries m).find? fun e => !sectionsOk len e).map (·.logical)

/-! ## Step words (R115-R117, R140) -/

/-- True when a step word breaks Tables 5.1 to 5.3: a reserved bit, an invalid code or an unused field
that is not zero. -/
def stepEncodingBad (w : Nat) : Bool :=
  let s := stepOf w
  bitsOf w 31 30 != 0 || bitOf w 47 || bitsOf w 79 77 != 0 || bitsOf w 127 122 != 0 ||
    bitsOf w 191 171 != 0 || bitsOf w 255 231 != 0 || decide (4 < s.flow) || s.nSrc == 3 ||
    s.syncOp == 3 ||
    (match s.arrayOp with
    | 0 => s.arrayMask != 0 || s.fmt != 0 || s.bank != 0 || s.srcAg != 0 || s.dstAg != 0 || s.mode ||
        s.rowFirst != 0 || s.accFirst != 0 || s.n != 0 || s.nSrc != 0
    | 1 => s.fmt != 0 || s.bank != 0 || s.dstAg != 0 || s.mode || s.rowFirst != 0 || s.accFirst != 0 ||
        s.n != 0 || s.nSrc != 0
    | 2 => decide (s.fmt < 1) || decide (2 < s.fmt) || s.dstAg != 0
    | _ => decide (s.fmt < 1) || decide (5 < s.fmt) || s.mode || s.accFirst != 0)

/-- True when a step names what its bench entry or the header does not declare. -/
def undeclared (m : Mem) (e : BenchEntry) (s : StepWord) : Bool :=
  (s.arrayOp != 0 && (List.range 4).any fun a => bitOf s.arrayMask a && (decide (e.need ≤ a) ||
      (decide (2 ≤ s.arrayOp) && !bitOf e.bankMask (4 * a + s.bank)))) ||
    ((s.raiseMask != 0 || s.waitMask != 0) && !bitOf e.groupMask s.reqGroup) ||
    (s.agCfgEn && decide (e.descs ≤ s.agCfgIndex)) || (s.flow == 3 && decide (e.jumps ≤ s.jtSel)) ||
    (s.vecLaunch && decide (e.words ≤ s.vecEntry)) ||
    (s.syncOp != 0 && (decide (imageBarriers m ≤ s.syncSel) || !bitOf (imageMask m s.syncSel) e.logical))

/-- The fault of a step word (R140), tested in the order listed. -/
def stepFault (m : Mem) (e : BenchEntry) (w : Nat) : Option Nat :=
  let s := stepOf w
  if stepEncodingBad w then some 1
  else if (s.flow = 1 ∨ s.flow = 2) ∧ e.steps ≤ s.target then some 2
  else if s.loopSetEn ∧ s.loopCount = 0 then some 4
  else if undeclared m e s then some 5
  else if 64 < s.routeLsb + s.routeWidth + 1 then some 1
  else if 256 < s.n then some 1
  else none

/-- Step word `i` of a bench. -/
def imageStep (m : Mem) (e : BenchEntry) (i : Nat) : Nat := m.getLe (e.stepAt + 32 * i) 32

/-- Jump table entry `i` of a bench, 256 to a table. -/
def imageJump (m : Mem) (e : BenchEntry) (i : Nat) : Nat := m.getLe (e.jumpAt + 2 * i) 2

/-- The fault of a jump table entry. -/
def jumpFault (e : BenchEntry) (v : Nat) : Option Nat :=
  if bitOf v 14 then some 6 else if bitOf v 15 ∧ e.steps ≤ bitsOf v 13 0 then some 2 else none

/-- The first failure among a bench's steps and jump tables: code and pc. -/
def benchImageFault (m : Mem) (e : BenchEntry) : Option (Nat × Nat) :=
  match (List.range e.steps).findSome? fun i => (stepFault m e (imageStep m e i)).map fun c => (c, i) with
  | some x => some x
  | none => ((List.range (256 * e.jumps)).findSome? fun i => jumpFault e (imageJump m e i)).map
      fun c => (c, 0)

/-- The first failure of R140 on an image of `len` bytes: code, logical bench and pc. -/
def imageFault (m : Mem) (len : Nat) : Option (Nat × Nat × Nat) :=
  match structureFault m len with
  | some l => some (6, l, 0)
  | none => (imageEntries m).findSome? fun e =>
      (benchImageFault m e).map fun x => (x.1, e.logical, x.2)

/-! ## Binding (R141, R142) -/

/-- Arrays in service of bench `b`, ascending. -/
def State.liveArrays (s : State) (b : Nat) : List Nat :=
  (List.range 4).filter fun a => s.arrayInService (4 * b + a)

/-- The physical array of each logical array that an entry needs (R142). -/
def arrayMapOf (live : List Nat) (need : Nat) : List Nat :=
  (List.range need).map fun a => live.getD (a % live.length) 0

/-- The declared (logical array, logical bank) pairs hosted by physical array `p`, ascending. -/
def hostedBanks (amap : List Nat) (mask p : Nat) : List (Nat × Nat) :=
  ((List.range 16).filter fun i => bitOf mask i && decide (i / 4 < amap.length) &&
    amap.getD (i / 4) 0 == p).map fun i => (i / 4, i % 4)

/-- True when a bench can host an entry: an array in service where one is needed, and the banks fit. -/
def State.benchHosts (s : State) (b : Nat) (e : BenchEntry) : Bool :=
  let live := s.liveArrays b
  let amap := arrayMapOf live e.need
  (e.need == 0 || !live.isEmpty) &&
    live.all fun p => decide ((amap.filter fun x => x == p).length ≤ 1) ||
      decide ((hostedBanks amap e.bankMask p).length ≤ 4)

/-- The physical bank of logical bank `i % 4` of logical array `i / 4`; an undeclared bank keeps the reset value of
Table 5.15. -/
def bankFor (amap : List Nat) (mask i : Nat) : Nat :=
  let p := amap.getD (i / 4) 0
  if i / 4 < amap.length ∧ 1 < (amap.filter fun x => x == p).length then
    (((hostedBanks amap mask p).zipIdx.find? fun e => e.1.1 == i / 4 && e.1.2 == i % 4).map (·.2)).getD (i % 4)
  else i % 4

/-- A bench placed: entry, physical bench and the physical groups of logical groups 0-3. -/
structure Placed where
  entry : BenchEntry
  bench : Nat
  groups : List Nat
  mask : Nat
deriving DecidableEq, Repr

/-- The bench that an entry takes among `free`: the greatest min(P, array_need), the lowest number. -/
def State.pickBench (s : State) (e : BenchEntry) (free : List Nat) : Option Nat :=
  ((free.filter fun b => s.benchHosts b e).foldl (fun (m : Option (Nat × Nat)) b =>
    let v := Nat.min (s.liveArrays b).length e.need
    match m with
    | none => some (v, b)
    | some x => if x.1 < v then some (v, b) else some x) none).map (·.2)

/-- The entries of a logical region placed on the free benches of a region, in ascending order. -/
def State.placeBenches (s : State) : List BenchEntry → List Nat → Option (List (BenchEntry × Nat))
  | [], _ => some []
  | e :: r, free =>
    match s.pickBench e free with
    | none => none
    | some b => (s.placeBenches r (free.filter fun x => x != b)).map fun l => (e, b) :: l

/-- A logical region placed in region `g`, after what `done` holds already. -/
def State.placeIn (s : State) (g : Nat) (es : List BenchEntry) (done : List Placed) :
    Option (List Placed) :=
  let mask := es.foldl (fun m e => m ||| e.groupMask) 0
  let lgs := (List.range 4).filter fun i => bitOf mask i
  let free := (List.range 4).filter fun i => (s.groupHolder g i).isNone &&
    !(s.region g).haul.retiredGroups.contains i &&
    !(done.any fun p => regionOf p.bench == g &&
      (List.range 4).any fun l => bitOf p.mask l && p.groups.getD l 0 == i)
  let gmap := (List.range 4).map fun l => if bitOf mask l then free.getD (lgs.findIdx fun x => x == l) 0 else 0
  let benches := ((List.range 5).map fun i => 5 * g + i).filter fun b =>
    s.benchInService b && (s.bench b).bind.isNone && !(done.any fun p => p.bench == b)
  if (s.region g).st = .retired ∨ (s.die (dieOf g)).held = true ∨ free.length < lgs.length then none
  else (s.placeBenches es benches).map fun l => l.map fun x =>
    { entry := x.1, bench := x.2, groups := gmap, mask := mask }

/-- Every logical region placed, in ascending order; otherwise the lowest logical bench of the first one
that could not be. -/
def State.placeAll (s : State) (es : List BenchEntry) : List Nat → List Placed → Except Nat (List Placed)
  | [], done => .ok done
  | lr :: r, done =>
    match es.filter fun e => e.region == lr with
    | [] => s.placeAll es r done
    | e :: rest =>
      match (List.range 8).findSome? fun g => s.placeIn g (e :: rest) done with
      | none => .error e.logical
      | some l => s.placeAll es r (done ++ l)

/-- True when a program could be placed if no face die were held in RESET (R438). -/
def State.needsHeld (s : State) (es : List BenchEntry) : Bool :=
  let free := (List.range 2).foldl (fun t d => t.modDie d fun x => { x with held := false }) s
  ((s.die 0).held || (s.die 1).held) &&
    match free.placeAll es (List.range 8) [] with
    | .ok _ => true
    | .error _ => false

/-- What binding writes for a placed bench (Tables 5.14 and 5.15). -/
def State.bindingFor (s : State) (fn k : Nat) (p : Placed) : Binding :=
  let e := p.entry
  let amap := arrayMapOf (s.liveArrays p.bench) e.need
  { prog := k, fn := fn, logical := e.logical, logicalRegion := e.region, arrayNeed := e.need
    bankMask := e.bankMask, arrayMap := (List.range 4).map fun a => amap.getD a 0, groupMap := p.groups
    groupMask := p.mask, bankMap := (List.range 16).map (bankFor amap e.bankMask), stepCount := e.steps
    entryPc := e.entry, kernelWords := e.words, jtCount := e.jumps, descCount := e.descs }

/-- A bench bound: its T0 and memories are zeroed (R26), the memories take its sections of the image (R139), the
vector registers are zeroed (R136), BN_ARITH_STAT and BN_SAT_COUNT are cleared (R86). -/
def State.bindBench (s : State) (m : Mem) (fn k : Nat) (p : Placed) : State :=
  let e := p.entry
  (s.dropPlanted p.bench).modBench p.bench fun x => { x with
    bind := some (s.bindingFor fn k p)
    seq := { x.seq with st := .bound, pc := 0 }
    t0 := [], vec := { x.vec with regs := [] }
    nonfiniteIn := false, outSaturated := false, fpInvalid := false, fpOverflow := false, satCount := 0
    steps := (List.range e.steps).map fun i => (i, BitVec.ofNat 256 (imageStep m e i))
    kernel := (List.range e.words).map fun i => (i, m.dword (e.wordAt + 8 * i))
    descs := (List.range e.descs).map fun i => (i, BitVec.ofNat 256 (m.getLe (e.descAt + 32 * i) 32))
    jumps := (List.range (256 * e.jumps)).map fun i => (i, BitVec.ofNat 16 (imageJump m e i)) }

/-! ## Signatures (R403, R404) -/

/-- Bytes of a signature block. -/
def sigBytes : Nat := 5312

/-- "SKDPRG01". -/
def sigContext : List Byte := [0x53, 0x4B, 0x44, 0x50, 0x52, 0x47, 0x30, 0x31]

/-- The checks of R404 on the block that follows the `len` bytes of an image. -/
def State.signatureOk (s : State) (m : Mem) (len : Nat) : Bool :=
  let slot := m.getLe (len + 5) 1
  let key := m.getBytes (len + 0x10) 1952
  m.getLe len 4 == 0x5160B10C && m.getLe (len + 4) 1 == 1 && decide (slot ≤ 3) &&
    m.zeroAt (len + 6) 10 && m.zeroAt (len + 0x149D) 35 && thas s.sec.programDigest slot &&
    Config.shake256 64 key == tget [] s.sec.programDigest slot &&
    Config.mlDsaVerify key (sigContext ++ Config.shake256 64 (m.getBytes 0 len))
      (m.getBytes (len + 0x7B0) 3309)

/-! ## LOAD_PROGRAM -/

/-- A load that ends with a program fault. -/
def State.loadFault (s : State) (c : Src) (code logical pc : Nat) : State :=
  s.doneDw c (.vendor 0xC1) (faultDword code logical pc) 0

/-- A program entered in its index. -/
def State.enterProgram (s : State) (k : Nat) (p : Prog) : State :=
  s.modHost fun h => { h with programs := tset h.programs k p }

/-- The running chain of loaded bench programs extended by an image (Table 16.5, index 10). -/
def State.extendMeasurement (s : State) (image : List Byte) : State :=
  let v := Config.shake256 64 (s.sec.measurement10 ++ Config.shake256 64 image)
  s.modSec fun x => { x with measurement10 := v }

/-- A bench program whose length has been checked: signature, image, binding (R140, R141, R404), then the
running measurement (R401). -/
def State.loadBenches (s : State) (c : Src) (k : Nat) (image : Buf) (len : Nat) : State :=
  let isSigned := decide (image.len ≠ len)
  let m := image.bytes.slice 0 len 0
  if (s.sec.signRequired && !isSigned) || (isSigned && !s.signatureOk image.bytes len) then
    s.done c (.vendor 0xC5)
  else
    match imageFault m len with
    | some (code, l, pc) => s.loadFault c code l pc
    | none =>
      match s.placeAll (imageEntries m) (List.range 8) [] with
      | .error l =>
        if s.needsHeld (imageEntries m) then s.done c (.vendor 0xC0) else s.loadFault c 0x0E l 0
      | .ok ps =>
        let s1 := ps.foldl (fun t p => t.bindBench m c.fn k p) s
        let s2 := s1.enterProgram k
          { loaded := true, kind := 2, image := image
            binds := ps.map fun p => { logical := p.entry.logical, bench := p.bench
                                       logicalRegion := p.entry.region }
            barrierMasks := (List.range 32).map (imageMask m) }
        (s2.extendMeasurement (m.getBytes 0 len)).done c .success

/-- LOAD_PROGRAM (R305, R140, R141, R404). -/
def execLoadProgram (c : Src) (index kind : Nat) (image : Buf) (s : State) :
    Host.Outcome State Fault Refusal :=
  .next (hostCmd c .operational (fun t =>
    let k := progKey c.fn index
    let len := image.bytes.getLe 8 4
    if 15 < index ∨ (kind ≠ 1 ∧ kind ≠ 2) then t.done c .invalidField
    else if kind = 1 ∧ (image.len < 16 ∨ 3088 < image.len) then t.done c .invalidField
    else if kind = 2 ∧ (image.len < 64 ∨ (image.len ≠ len ∧ image.len ≠ len + sigBytes)) then
      t.done c .invalidField
    else if (t.prog k).loaded then t.done c .commandSequenceError
    else if kind = 1 then
      (t.enterProgram k { loaded := true, kind := 1, image := image }).done c .success
    else t.loadBenches c k image len) s)

/-! ## UNLOAD_PROGRAM, PROGRAM_ACTIVATION_MANAGEMENT, EXECUTE_PROGRAM -/

/-- UNLOAD_PROGRAM (R306): waits for the program's executes, then releases its binding. -/
def execUnloadProgram (c : Src) (index : Nat) (s : State) : Host.Outcome State Fault Refusal :=
  .next (hostCmd c .operational (fun t =>
    if 15 < index ∨ (t.prog (progKey c.fn index)).loaded = false then t.done c .invalidField
    else t.startTry c (.unload (progKey c.fn index))) s)

/-- PROGRAM_ACTIVATION_MANAGEMENT (R305): a program is active from its load to its unload; activating a
loaded program does nothing. -/
def execProgramActivationManagement (c : Src) (index : Nat) (activate : Bool) (s : State) :
    Host.Outcome State Fault Refusal :=
  .next (hostCmd c .operational (fun t =>
    if index ≤ 15 ∧ (t.prog (progKey c.fn index)).loaded ∧ activate then t.done c .success
    else t.done c .invalidField) s)

/-- The eight parameter words of an execute (R121), signed 64-bit. -/
def paramWords (p : Buf) : List Int :=
  (List.range 8).map fun i => signed 64 (p.bytes.getLe (8 * i) 8)

/-- EXECUTE_PROGRAM (R144, R307): an execute of a bench program starts it, or waits behind an earlier one.
-/
def execExecuteProgram (c : Src) (index : Nat) (params : Buf) (s : State) :
    Host.Outcome State Fault Refusal :=
  .next (hostCmd c .operational (fun t =>
    let k := progKey c.fn index
    if 15 < index ∨ (t.prog k).loaded = false ∨ (t.prog k).kind ≠ 2 ∨ params.len ≠ 64 then
      t.done c .invalidField
    else t.startTry c (.execute k (paramWords params) false)) s)

end Sys2Proof.Machine
end

