-- ==== Sys2Proof/Machine/Predicate.lean ====
section
/-! DEFINITION. Predicate programs: the image, its checks and the evaluation of a record, shared by the
sieve and the walker (R42-R45). -/

namespace Sys2Proof.Machine

/-- Number of terms of the image at `a` of `m`. -/
def predTerms (m : Mem) (a : Nat) : Nat := m.getLe (a + 2) 2
/-- Number of pool words. -/
def predPool (m : Mem) (a : Nat) : Nat := m.getLe (a + 4) 2
/-- The schema that a program was compiled for. -/
def predSchema (m : Mem) (a : Nat) : Nat := m.getLe (a + 8) 4
/-- Offset of the pool: the first multiple of 8 at or after the end of the terms (R42). -/
def poolOffset (terms : Nat) : Nat := 8 * ceilDiv (16 + 4 * terms) 8
/-- Bytes of an image (R44, check 0x21). -/
def predBytes (m : Mem) (a : Nat) : Nat :=
  if predPool m a = 0 then 16 + 4 * predTerms m a else poolOffset (predTerms m a) + 8 * predPool m a
/-- Term word `i`. -/
def predTerm (m : Mem) (a i : Nat) : Nat := m.getLe (a + 16 + 4 * i) 4
/-- Pool word `i`. -/
def predPoolWord (m : Mem) (a i : Nat) : Nat := m.getLe (a + poolOffset (predTerms m a) + 8 * i) 8

/-- The fields of a term word (Table 2.5). -/
structure Term where
  opcode : Nat
  attr : Nat
  negate : Bool
  last : Bool
  opA : Nat
  opB : Nat
deriving DecidableEq, Repr

/-- A term word taken apart. -/
def termOf (w : Nat) : Term :=
  { opcode := bitsOf w 7 0, attr := bitsOf w 12 8, negate := bitOf w 13, last := bitOf w 14
    opA := bitsOf w 23 16, opB := bitsOf w 31 24 }

/-- True when a term word has a valid opcode and a zero reserved bit (check 0x22). -/
def termValid (w : Nat) : Bool :=
  let o := bitsOf w 7 0
  ((decide (1 ≤ o) && decide (o ≤ 0x0C)) || o == 0x0F) && !bitOf w 15

/-- True when every pool index that a term reads lies inside the pool (check 0x23). -/
def termPoolOk (pool w : Nat) : Bool :=
  let t := termOf w
  if t.opcode = 0x0F then true
  else if t.opcode = 0x0C then
    decide (1 ≤ t.opB) && decide (t.opB ≤ 64) && decide (t.opA + t.opB ≤ pool)
  else if t.opcode = 4 ∨ t.opcode = 7 ∨ t.opcode = 8 ∨ t.opcode = 0x0B then
    decide (t.opA < pool) && decide (t.opB < pool)
  else decide (t.opA < pool)

/-- The first check of R44 that the image at `a` of `m` fails: its code and term index. `len` is the
length of the image; the walker, which has none, applies only the range checks. -/
def predCheck (m : Mem) (a : Nat) (len : Option Nat) : Option (Nat × Nat) :=
  let n := predTerms m a
  let p := predPool m a
  let lenBad := match len with
    | none => false
    | some l => decide (l ≠ predBytes m a)
  if m.getLe a 1 ≠ 1 ∨ m.getLe (a + 1) 1 ≠ 1 ∨ m.zeroAt (a + 6) 2 = false ∨ m.zeroAt (a + 12) 4 = false
  then some (0x20, 0)
  else if n < 1 ∨ 256 < n ∨ 256 < p ∨ lenBad = true then some (0x21, 0)
  else
    match firstIdx (fun i => !termValid (predTerm m a i)) n with
    | some i => some (0x22, i)
    | none =>
      match firstIdx (fun i => !termPoolOk p (predTerm m a i)) n with
      | some i => some (0x23, i)
      | none => if (termOf (predTerm m a (n - 1))).last then none else some (0x24, n - 1)

/-- True when both halves of `v` lie in the box from `a` to `b` (BOX32). -/
def inBox (v a b : Nat) : Bool :=
  let x := fun n => signed 32 (bitsOf n 31 0)
  let y := fun n => signed 32 (bitsOf n 63 32)
  decide (x a ≤ x v) && decide (x v ≤ x b) && decide (y a ≤ y v) && decide (y v ≤ y b)

/-- What a term's opcode says of attribute word `v`, and the evaluations counted (Table 2.6). `pool`
reads the program's pool words. -/
def evalTerm (pool : Nat → Nat) (t : Term) (v : Nat) : Bool × Nat :=
  let a := pool t.opA
  let b := pool t.opB
  let sa := signed 64 a
  let sb := signed 64 b
  let sv := signed 64 v
  match t.opcode with
  | 0x01 => (decide (v = a), 1)
  | 0x02 => (decide (v < a), 1)
  | 0x03 => (decide (a ≤ v), 1)
  | 0x04 => (decide (a ≤ v) && decide (v ≤ b), 1)
  | 0x05 => (decide (sv < sa), 1)
  | 0x06 => (decide (sa ≤ sv), 1)
  | 0x07 => (decide (sa ≤ sv) && decide (sv ≤ sb), 1)
  | 0x08 => (inBox v a b, 1)
  | 0x09 => (decide (v &&& a ≠ 0), 1)
  | 0x0A => (decide (v &&& a = a), 1)
  | 0x0B => (decide (v &&& a = b), 1)
  | 0x0C =>
    match firstIdx (fun i => pool (t.opA + i) == v) t.opB with
    | some i => (true, ceilDiv (i + 1) 4)
    | none => (false, ceilDiv t.opB 4)
  | _ => (true, 0)

/-- The evaluation of R45 from a term on: `ok` and `product` are those of the product under way, `n` the
evaluations so far. The answer is the first product that passed and the evaluations counted. -/
def evalTerms (pool attr : Nat → Nat) : List Term → Bool → Nat → Nat → Option Nat × Nat
  | [], _, _, n => (none, n)
  | t :: r, ok, product, n =>
    let e := if ok then evalTerm pool t (attr t.attr) else (false, 0)
    let now := ok && (e.1 != t.negate)
    if t.last then
      if now then (some product, n + e.2) else evalTerms pool attr r true (product + 1) (n + e.2)
    else evalTerms pool attr r now product (n + e.2)

/-- The program at `a` of `m` evaluated on a record whose attribute words `attr` gives (R45). -/
def predEval (m : Mem) (a : Nat) (attr : Nat → Nat) : Option Nat × Nat :=
  evalTerms (predPoolWord m a) attr ((List.range (predTerms m a)).map fun i => termOf (predTerm m a i))
    true 0 0

end Sys2Proof.Machine
end

