-- ==== Sys2Proof/Machine/Scans.lean ====
section
/-! DEFINITION. Scans: the command, the pin, the sieve of a stack, and the end of a scan (R36-R60,
R308). -/

namespace Sys2Proof.Machine

/-! ## EXECUTE_SCAN (R46, R308) -/

/-- The scan that a descriptor asks for (Table 2.7). -/
def scanOf (m : Mem) : Scan :=
  { id := 0, op := 0, fn := 0, prog := 0, policy := m.getLe 1 1, destTensor := bitOf (m.getLe 2 2) 0
    nsid := m.getLe 4 4, startLba := m.getLe 8 8, lbaCount := m.getLe 0x10 8, schema := m.getLe 0x18 4
    projMask := m.getLe 0x1C 4, payloadMode := m.getLe 0x20 1, payloadOffset := m.getLe 0x22 2
    payloadLength := m.getLe 0x24 2, recordLimit := m.getLe 0x28 8, outputAddr := m.getLe 0x30 8
    outputSize := m.getLe 0x38 8 }

/-- The field checks of R46 on a descriptor for a program compiled for `schema`. The payload fields are
read in mode 0x02 only; an output_addr of 2^48 or more with dest_tensor is a field out of its range (DESIGN CHOICE,
notes/assumptions/110.md). -/
def scanFieldsOk (m : Mem) (schema : Nat) : Bool :=
  let x := scanOf m
  m.getLe 0 1 == 1 && decide (x.policy ≤ 1) && decide (m.getLe 2 2 ≤ 1) && decide (x.startLba % 4 = 0) &&
    decide (x.lbaCount % 4 = 0) && decide (x.lbaCount ≠ 0) && x.schema == schema &&
    decide (x.payloadMode ≤ 2) && m.zeroAt 0x21 1 && m.zeroAt 0x26 2 && m.zeroAt 0x40 64 &&
    (x.payloadMode != 2 || (decide (1 ≤ x.payloadLength) && decide (x.payloadLength ≤ 16316))) &&
    (if x.destTensor then decide (x.outputAddr < 2 ^ 48) else x.outputAddr == 0) &&
    decide (4096 ≤ x.outputSize) && decide (x.outputSize % 4096 = 0) && decide (x.outputSize ≤ 2 ^ 32)

/-- The check of R308 on a data buffer: its status where it fails. -/
def Scan.bufferFault (x : Scan) (len : Nat) (sgl : Bool) : Option Status :=
  if x.destTensor then none
  else if len ≠ x.outputSize then some (if sgl then .sglLengthInvalid else .invalidField)
  else if 2097152 < len ∧ sgl = false then some .invalidField
  else none

/-- A scan accepted: it waits for its pin (R55, R57). -/
def State.startScan (s : State) (c : Src) (x : Scan) (k : Nat) : State :=
  let i := s.host.nextOp
  ((s.startOp c (.scan i)).modScans fun l => l ++ [{ x with id := i, op := i, fn := c.fn, prog := k }]).modFlash
    fun f => { f with pinWait := f.pinWait ++ [i] }

/-- EXECUTE_SCAN (R44, R46, R307, R308): descriptor fields, namespace, range, buffer and program are
checked in that order (DEDUCED, notes/assumptions/21.md), and the scan starts. -/
def execExecuteScan (c : Src) (index : Nat) (params : Buf) (bufLen : Nat) (sgl : Bool) (s : State) :
    Host.Outcome State Fault Refusal :=
  .next (hostCmd c .operational (fun t =>
    let k := progKey c.fn index
    let p := t.prog k
    let m := params.bytes
    let x := scanOf m
    if 15 < index ∨ p.loaded = false ∨ p.kind ≠ 1 ∨ params.len ≠ 128 then t.done c .invalidField
    else if scanFieldsOk m (predSchema p.image.bytes 0) = false then t.done c .invalidField
    else if t.nsUsable c.fn x.nsid = false then t.done c .invalidNamespace
    else if (t.ns x.nsid).blocks < x.startLba + x.lbaCount then t.done c .lbaOutOfRange
    else
      match x.bufferFault bufLen sgl with
      | some st => t.done c st
      | none =>
        match predCheck p.image.bytes 0 (some p.image.len) with
        | some (code, i) => t.doneDw c (.vendor 0xC1) (BitVec.ofNat 32 (code + 256 * i)) 0
        | none => t.startScan c x k) s)

/-! ## MAP_EPOCH_PIN (R47, R55-R57) -/

/-- True when a logical block of the page is marked unreadable (R278). -/
def State.pageMarked (s : State) (nsid lba : Nat) : Bool :=
  s.flash.unreadable.any fun e => e.1 == nsid && e.2 / 4 == lba / 4

/-- True when a logical block of the page as scan `x` pinned it is marked unreadable: it was at the pin, or it is while
the map still names the pinned page (R55, R278). -/
def State.pinMarked (s : State) (x : Scan) (lba : Nat) : Bool :=
  x.marked.contains lba || (s.pageMarked x.nsid lba &&
    s.pinnedMap x.id (iuKey x.nsid (lba / 4)) == tget 0 s.flash.map (iuKey x.nsid (lba / 4)))

/-- MAP_EPOCH_PIN (R55, R57): with fewer than 16 pins held, the scan submitted first among those that wait
pins its namespace's map epoch; the pages of its range go to their stacks in ascending order (R47), and an
encrypted namespace's key into a register of every stack (R406). -/
def execMapEpochPin (scan : Nat) (s : State) : Host.Outcome State Fault Refusal :=
  .next (match s.scan scan, s.flash.pinWait with
  | some x, i :: rest =>
    if i = scan ∧ s.flash.pins.length < 16 ∧ x.stopped = false ∧
        s.heldExecute x.op x.fn = false then
      let s1 := s.modFlash fun f => { f with
        pinWait := rest
        pins := f.pins ++ [{ scan := scan, nsid := x.nsid, seq := f.jseq }]
        seam := if (s.ns x.nsid).encrypted then
            (List.range 32).foldl (fun t k => tmod {} t k fun z => { z with keys := z.keys ++ [scan] }) f.seam
          else f.seam }
      s1.modScan scan fun y => { y with
        pinned := true
        marked := ((List.range (y.lbaCount / 4)).map fun k => y.startLba + 4 * k).filter (s.pageMarked y.nsid)
        pages := (List.range (y.lbaCount / 4)).map fun k =>
          { lba := y.startLba + 4 * k, stack := s1.scanStack scan y.nsid (y.startLba + 4 * k) } }
    else s
  | _, _ => s)

/-! ## Record pages (Tables 2.1-2.3) -/

/-- Slot directory entry `i`. -/
def slotWord (m : Mem) (i : Nat) : Nat := m.getLe (64 + 4 * i) 4
/-- Offset of a slot's record. -/
def slotOffset (w : Nat) : Nat := bitsOf w 13 0
/-- Length of a slot's record. -/
def slotLength (w : Nat) : Nat := bitsOf w 27 14

/-- The code of the first check of Table 2.3 that the page at offset 0 of `m` fails, 0 for none. -/
def pageCheck (m : Mem) (schema : Nat) : Nat :=
  let n := m.getLe 0xC 2
  let a := m.getLe 0xE 1
  let slots := (List.range n).map (slotWord m)
  if m.getLe 0 4 ≠ 0xB01A5E7E then 1
  else if m.getLe 4 2 ≠ 1 then 2
  else if m.getLe 0x3C 4 ≠ crcWithout m 0 16384 0x3C then 3
  else if m.getLe 6 2 ≠ 0x40 ∨ m.getLe 0x10 2 ≠ 0x40 then 4
  else if m.getLe 8 4 ≠ schema then 5
  else if n < 1 ∨ 1024 < n then 6
  else if a < 1 ∨ 32 < a then 7
  else if slots.any (fun w => decide (slotOffset w < 64 + 4 * n) ||
      decide (16384 < slotOffset w + slotLength w)) then 8
  else if slots.any (fun w => decide (slotOffset w % 8 ≠ 0)) then 9
  else if slots.any (fun w => decide (slotLength w < 8 * a)) then 10
  else 0

/-- Attribute word `i` of the record at `o` on a page with `n` attributes; others read 0 (R44). -/
def pageAttr (m : Mem) (o n i : Nat) : Nat := if i < n then m.getLe (o + 8 * i) 8 else 0

/-- The payload bytes that a scan copies of a record, and whether the range was cut at its end
(Table 2.8). -/
def Scan.payload (x : Scan) (m : Mem) (o n len : Nat) : List Byte × Bool :=
  let start := o + 8 * n
  let size := len - 8 * n
  if x.payloadMode = 0 then ([], false)
  else if x.payloadMode = 1 then (m.getBytes start size, false)
  else
    let from' := Nat.min x.payloadOffset size
    let to' := Nat.min (x.payloadOffset + x.payloadLength) size
    (m.getBytes (start + from') (to' - from'), decide (size < x.payloadOffset + x.payloadLength))

/-- The output record of a record that passed at `product` (Table 2.8). -/
def Scan.record (x : Scan) (m : Mem) (lba slot stack product : Nat) : List Byte :=
  let w := slotWord m slot
  let n := m.getLe 0xE 1
  let attrs := ((List.range 32).filter fun i => bitOf x.projMask i).flatMap fun i =>
    leBytes 8 (pageAttr m (slotOffset w) n i)
  let pl := x.payload m (slotOffset w) n (slotLength w)
  let len := 8 * ceilDiv (16 + attrs.length + pl.1.length) 8
  leBytes 8 lba ++ leBytes 2 slot ++ leBytes 2 len ++ leBytes 1 stack ++ leBytes 1 (b2n pl.2) ++
    leBytes 2 product ++ attrs ++ pl.1 ++
    List.replicate (len - (16 + attrs.length + pl.1.length)) 0

/-- What a sieve reports of a page: live records, output records in slot order, evaluations. -/
structure Sieved where
  examined : Nat
  records : List (List Byte)
  evals : Nat
deriving DecidableEq, Repr

/-- The live records of a page evaluated in slot order (R39, R45). `img` is the predicate image. -/
def Scan.sieve (x : Scan) (img m : Mem) (lba stack : Nat) : Sieved :=
  let n := m.getLe 0xE 1
  let live := (List.range (m.getLe 0xC 2)).filter fun i => !bitOf (slotWord m i) 31
  let r := live.map fun i => (i, predEval img 0 (pageAttr m (slotOffset (slotWord m i)) n))
  { examined := live.length
    records := r.filterMap fun e => e.2.1.map fun p => x.record m lba e.1 stack p
    evals := r.foldl (fun t e => t + e.2.2) 0 }

/-! ## The merge (R50-R53) -/

/-- The bytes of a list of records. -/
def recordBytes (l : List (List Byte)) : Nat := l.foldl (fun n r => n + r.length) 0

/-- How many records of a page are written, and the stop flag of sum_flags that it sets, 0 for none
(R51): the records of the crossing page up to a limit that they meet exactly. -/
def Scan.takeRecords (x : Scan) (l : List (List Byte)) : Nat × Nat :=
  let room := x.outputSize - 64 - x.outBytes
  let lim := if x.recordLimit = 0 then l.length else x.recordLimit - x.returned
  if l.length ≤ lim ∧ recordBytes l ≤ room then (l.length, 0)
  else if lim < l.length ∧ recordBytes (l.take lim) ≤ room then (lim, 2)
  else
    (((List.range (Nat.min lim l.length + 1)).reverse.find? fun j =>
      recordBytes (l.take j) == room).getD 0, 4)

/-- The page at `lba` leaves the list of those not fully returned. -/
def Scan.pageDone (x : Scan) (lba : Nat) : Scan :=
  { x with pages := x.pages.filter fun p => p.lba != lba }

/-- A malformed page (R52). -/
def Scan.malformed (x : Scan) (lba : Nat) : Scan :=
  let y := { x with
    pagesRead := x.pagesRead + 1
    firstMalformed := some (match x.firstMalformed with | some m => Nat.min m lba | none => lba) }
  if x.policy = 0 then y.halt 16 (.vendor 0xC4)
  else { y with skipped := y.skipped + 1 }.pageDone lba

/-- The records of a well-formed page merged into the output buffer. -/
def Scan.merge (x : Scan) (r : Sieved) (lba : Nat) : Scan :=
  let t := x.takeRecords r.records
  let out := (r.records.take t.1).flatten
  let y := { x with
    pagesRead := x.pagesRead + 1, examined := x.examined + r.examined
    passed := x.passed + r.records.length, returned := x.returned + t.1
    out := x.out.putBytes (64 + x.outBytes) out, outBytes := x.outBytes + out.length }
  if t.2 = 0 then y.pageDone lba else y.halt t.2 .success

/-- The scan whose turn it is on a stack: round robin over those with pages there (R47). -/
def State.sieveTurn (s : State) (k : Nat) : Option Nat :=
  let ids := (s.scans.filter fun x => !x.stopped && x.pages.any fun p => p.stack == k).map (·.id)
  match ids.filter fun i => decide ((s.stack k).lastScan < i) with
  | i :: r => some (r.foldl Nat.min i)
  | [] => match ids with
    | i :: r => some (r.foldl Nat.min i)
    | [] => none

/-- The base-die cycles that a page costs (R36). -/
def pageCost (evals out : Nat) : Nat := Nat.max 1024 (Nat.max (ceilDiv evals 4) (ceilDiv out 16))

/-- SIEVE_PAGE (R36, R39-R41, R45, R47, R51-R53): the sieve of stack `stack` takes the next page of scan
`scan`, whose turn it is; `readable` is false when the page cannot be read even after reconstruction. A page on a retired die is
reconstructed (R269). The page's cost reaches the monitors (source 0x0C of Table 18.2). -/
def execSievePage (scan stack : Nat) (readable : Bool) (s : State) : Host.Outcome State Fault Refusal :=
  .next (match s.scan scan with
  | none => s
  | some x =>
    match x.pages.find? fun p => p.stack == stack with
    | none => s
    | some pg =>
      if s.sieveTurn stack ≠ some scan ∨ s.flash.mounted = false then s
      else
        let key := iuKey x.nsid (pg.lba / 4)
        let v := s.pinnedMap scan key
        let s0 := (s.lookup key).modStack stack fun z => { z with lastScan := scan }
        if readable = false ∨ s.pinMarked x pg.lba = true then
          s0.mediaError.modScan scan fun y => y.halt 0 .unrecoveredRead
        else
          let s1 := (if v = 0 then s0 else if s.pageGone (v - 1) then s0.countRebuild (v - 1)
            else s0.countRead (v - 1)).modStack stack fun z => { z with sievePages := z.sievePages + 1 }
          let m : Mem := if v = 0 then [] else if s.pageGone (v - 1) then s.rebuilt (v - 1)
            else tget [] s.flash.media (v - 1)
          let code := pageCheck m x.schema
          if m.zeroAt 0 16384 then
            (s1.observe 0x0C stack (pageCost 0 0 : Nat)).modScan scan fun y =>
              { y with pagesRead := y.pagesRead + 1, empty := y.empty + 1 }.pageDone pg.lba
          else if code ≠ 0 then
            ((s1.observe 0x0C stack (pageCost 0 0 : Nat)).modStack stack fun z => { z with
              sieveLastError := code, malformedSeen := true }).modScan scan fun y => y.malformed pg.lba
          else
            let r := x.sieve (s.prog x.prog).image.bytes m pg.lba stack
            ((s1.observe 0x0C stack (pageCost r.evals (recordBytes r.records) : Nat)).modStack stack fun z => { z with
              sieveTerms := z.sieveTerms + BitVec.ofNat 64 r.evals
              sieveOut := z.sieveOut + BitVec.ofNat 64 (recordBytes r.records) }).modScan scan fun y =>
                y.merge r pg.lba)

/-! ## SCAN_COMPLETE (R49-R53, R55) -/

/-- The lowest LBA whose page has not had every passing record returned. -/
def Scan.resumeLba (x : Scan) : Nat :=
  x.pages.foldl (fun m p => Nat.min m p.lba) (x.startLba + x.lbaCount)

/-- The 64 bytes of the summary (Table 2.9). -/
def Scan.summary (x : Scan) : List Byte :=
  leBytes 8 x.pagesRead ++ leBytes 8 x.examined ++ leBytes 8 x.passed ++ leBytes 8 x.returned ++
    leBytes 8 x.resumeLba ++ leBytes 8 (x.firstMalformed.getD 0xFFFFFFFFFFFFFFFF) ++ leBytes 4 x.empty ++
    leBytes 4 x.skipped ++ leBytes 4 x.outBytes ++
    leBytes 1 (x.stopFlags + b2n (!x.stopped)) ++ [0, 0, 0]

/-- A scan ended: its pin released, its completion posted with records_returned on success (R307). -/
def State.endScan (s : State) (x : Scan) (st : Status) (dw0 : Word) (reply : Reply) : State :=
  ((s.releaseScan x.id).finish x.op st dw0 reply).settle

/-- A scan whose output destination refuses the access. -/
def State.scanFailed (x : Scan) (r : Acc) (s : State) : State :=
  match r with
  | .ok => s
  | .wait => s
  | .bad => s.endScan x .lbaOutOfRange 0 .none
  | .denied => s.endScan x .accessDenied 0 .none
  | .lost => s.endScan x (.vendor 0xC0) 0 .none
  | .poisoned => s.endScan x .unrecoveredRead 0 .none
  | .exhausted c => s.endScan x (.vendor 0xC2) (BitVec.ofNat 32 c) .none

/-- SCAN_COMPLETE (R49-R53, R55): a scan that has stopped, or has returned its whole range, writes its
buffer with the summary, releases its pin and completes. -/
def execScanComplete (scan : Nat) (s : State) : Host.Outcome State Fault Refusal :=
  .next (match s.scan scan with
  | none => s
  | some x =>
    if x.stopped = true ∨ (x.pinned = true ∧ x.pages = []) then
      let buf := x.out.putBytes 0 x.summary
      let n := 64 + x.outBytes
      let dw0 : Word := if x.status = .success then BitVec.ofNat 32 (capNat 0xFFFFFFFF x.returned) else 0
      if x.status = .abortRequested then s.endScan x .abortRequested 0 .none
      else if x.destTensor then
        s.tsStore { waiter := .scan x.id } x.fn x.outputAddr n none (fun m => m.copyIn x.outputAddr buf 0 n)
          (State.scanFailed x) fun t => t.endScan x x.status dw0 .none
      else s.endScan x x.status dw0 (.data { len := n, bytes := buf })
    else s)

/-- True when pins prevent reclamation: a block without valid data cannot be erased for one of them (R58, R272). -/
def State.pinsHoldBack (s : State) : Bool := s.victims.any fun e => (s.validIn e.1).isEmpty && !s.unpinned e.1

/-- FREE_POOL_CRITICAL_FLOOR (R58, R275): with the free pool below 1 % while pinned blocks prevent reclamation, the
scan that holds the oldest pin stops as at a limit and will complete with Command Interrupted. -/
def execFreePoolCriticalFloor (s : State) : Host.Outcome State Fault Refusal :=
  .next (if s.flash.freePct < 1 ∧ s.pinsHoldBack = true then s.endOldestPin else s)

end Sys2Proof.Machine
end

