-- ==== Sys2Proof/Machine/Security.lean ====
section
/-! DEFINITION. Identity, attestation, program keys and the life cycle: the security commands of Table 16.8
and the SPDM requests (R398-R412). -/

namespace Sys2Proof.Machine

/-! ## Provisioning (R398, R399) -/

/-- The index of the highest non-blank life-cycle entry, 0 in BLANK (R393). -/
def Security.entryIndex (x : Security) : Nat := x.lcRecord.length

/-- The identity seed in use: the one held since Provision Begin, or the copy whose index is current. -/
def Security.seed (x : Security) : Option Nat :=
  match x.seedHeld with
  | some d => some d
  | none => (x.seedCopies.find? fun e => e.2 == x.entryIndex).map (·.1)

/-- PROVISION_BEGIN (R398): a new seed, and the request over its key. -/
def execProvisionBegin (c : Src) (s : State) : Host.Outcome State Fault Refusal :=
  .next (pfCmd c .provision (fun t =>
    let d := t.sec.draws
    (t.modSec fun x => { x with seedHeld := some d, draws := d + 1 }).answer c
      (.data (Buf.ofBytes (Config.pkcs10 d t.mfg.serial.toNat)))) s)

/-- The longest chain of a slot: 32 KiB in slot 0, 16 KiB in slot 1 (R399). -/
def chainLimit (slot : Nat) : Nat := if slot = 0 then 32768 else 16384

/-- True when the leaf of a chain holds the identity public key. -/
def Security.leafMatches (x : Security) (chain : Buf) : Bool :=
  match x.seed with
  | none => false
  | some d => Config.chainLeafKey chain.toBytes == some (Config.identityKey d)

/-- Slot 0 written: the seed is wrapped under the new entry, which moves the module to PROVISIONED. -/
def Security.provisioned (x : Security) (d : Nat) (chain : Buf) : Security :=
  let n := x.entryIndex + 1
  { x with chain0 := chain, seedHeld := none, seedCopies := [(d, n), (d, n)]
           lcRecord := x.lcRecord ++ [LifeCycle.provisioned.code]
           completionRecord := LifeCycle.provisioned.code }

/-- CERTIFICATE_INSTALL (R398, R399). -/
def execCertificateInstall (c : Src) (dw10 dw11 : Word) (chain : Buf) (s : State) :
    Host.Outcome State Fault Refusal :=
  let slot := fld dw10 0 0
  .next (pfCmd c (if slot = 0 then .slot0 else .slot1) (fun t =>
    if fld dw10 31 1 ≠ 0 ∨ chain.len ≠ dw11.toNat ∨ chainLimit slot < chain.len ∨ chain.len = 0 then
      t.done c .invalidField
    else match t.sec.seed with
    | none => t.done c .commandSequenceError
    | some d =>
      if t.sec.leafMatches chain = false then t.done c .invalidField
      else if slot = 0 then (t.modSec fun x => x.provisioned d chain).done c .success
      else (t.modSec fun x => { x with chain1 := chain }).done c .success) s)

/-! ## The life cycle (R409, R410) -/

/-- LIFE_CYCLE_NONCE (R409): 32 bytes of the generator. -/
def execLifeCycleNonce (c : Src) (s : State) : Host.Outcome State Fault Refusal :=
  .next (pfCmd c .lifeCycle (fun t =>
    let d := t.sec.draws
    (t.modSec fun x => { x with nonce := some d, draws := d + 1 }).answer c
      (.data (Buf.ofBytes ((Config.random d).take 32)))) s)

/-- "SKDDBG01". -/
def debugContext : List Byte := [0x53, 0x4B, 0x44, 0x44, 0x42, 0x47, 0x30, 0x31]

/-- The debug authorisation (R409): 48 bytes, the signature of a non-revoked vendor slot over them, and the
slot's public key. -/
def State.debugAuthorised (s : State) (auth : Buf) : Bool :=
  let signed := auth.bytes.getBytes 0 48
  let key := auth.bytes.getBytes (48 + 3309) 1952
  auth.len == 48 + 3309 + 1952 &&
  match s.sec.nonce with
  | none => false
  | some d =>
    signed == debugContext ++ leBytes 8 s.mfg.serial.toNat ++ (Config.random d).take 32 &&
      ((List.range 3).any fun i => !bitOf s.sec.slotRevoked i &&
        Config.shake256 64 key == Config.vendorKeyDigest i) &&
      Config.mlDsaVerify key signed (auth.bytes.getBytes 48 3309)

/-- The transitions of R409 by command: to DEBUG with its authorisation. -/
def State.transitionOk (s : State) (target : Nat) (auth : Buf) : Bool :=
  match s.lifeCycle, target with
  | .provisioned, 2 => true
  | .provisioned, 3 => s.debugAuthorised auth
  | .deployed, 3 => s.debugAuthorised auth
  | .debug, 1 => true
  | _, 4 => true
  | _, _ => false

/-- Steps 1 and 2 of R410: the seed wrapped again under the entry about to be blown, over the older copy,
and the entry or the decommissioned fuse blown. -/
def Security.blow (x : Security) (target : Nat) : Security :=
  if target = 4 then { x with decommissioned := true, transition := some target }
  else
    let n := x.entryIndex + 1
    { x with lcRecord := x.lcRecord ++ [target], transition := some target
             seedCopies := match x.seedCopies.find? fun e => e.2 == x.entryIndex with
               | none => x.seedCopies
               | some e => [(e.1, n), e] }

/-- LIFE_CYCLE_TRANSITION (R409, R410): steps 1 to 3 here; the others follow its module reset. -/
def execLifeCycleTransition (c : Src) (dw10 : Word) (auth : Buf) (s : State) :
    Host.Outcome State Fault Refusal :=
  let target := fld dw10 3 0
  .next (pfCmd c .lifeCycle (fun t =>
    if fld dw10 31 4 ≠ 0 then t.done c .invalidField
    else if t.host.ops.isEmpty = false then t.done c .commandSequenceError
    else if target ≠ 4 ∧ 31 ≤ t.sec.lcRecord.length then t.done c .commandSequenceError
    else if t.transitionOk target auth = false then t.done c (.vendor 0xC5)
    else
      let t1 := (t.modSec fun x => x.blow target).done c .success
      t1.moduleReset true (t1.stamped 2 { kind := Config.resetKind 1 % 256 })) s)

/-! ## Program keys (R402, R412) -/

/-- True when the fields of Program Signing Configure are in order: 1,952 bytes of key unless clearing. -/
def keyFieldsOk (dw10 : Word) (key : Buf) : Bool :=
  fld dw10 31 4 == 0 && (bitOf dw10.toNat 3 || key.len == 1952)

/-- The signing policy and a program key slot set (Table 16.8). -/
def Security.setKey (x : Security) (dw10 : Word) (key : Buf) : Security :=
  let slot := fld dw10 2 1
  { x with
    signRequired := bitOf dw10.toNat 0
    programDigest := if bitOf dw10.toNat 3 then tdel x.programDigest slot
      else tset x.programDigest slot (Config.shake256 64 key.toBytes) }

/-- PROGRAM_SIGNING_CONFIGURE (R412). -/
def execProgramSigningConfigure (c : Src) (dw10 : Word) (key : Buf) (s : State) :
    Host.Outcome State Fault Refusal :=
  .next (pfCmd c .signing (fun t =>
    if keyFieldsOk dw10 key then (t.modSec fun x => x.setKey dw10 key).done c .success
    else t.done c .invalidField) s)

/-! ## SPDM (R400-R402) -/

/-- An SPDM response. -/
def State.spdm (s : State) (r : Reply) : State := s.modSec fun x => { x with spdmReplies := x.spdmReplies ++ [r] }

/-- True when a PF's DOE mailbox answers: the firmware runs and the port exists. -/
def State.mailbox (s : State) (port : Nat) : Bool :=
  s.power.on && s.sec.booted && (port == 0 || s.host.dual)

/-- True when the life-cycle state permits a request other than GET_VERSION (Table 16.7). -/
def State.attests (s : State) : Bool := s.lifeCycle != .blank && s.lifeCycle != .decommissioned

/-- A request answered by `f`, or with ERROR in a state that does not permit it. -/
def spdmRequest (port : Nat) (f : State → State) (s : State) : State :=
  if s.mailbox port then (if s.attests then f s else s.spdm .error) else s

/-- What the module supports of SPDM (Table 16.4): version 1.4 alone, the capabilities that it has of the specification's
(no PSK, certificate request or SET_CERTIFICATE), the algorithms by name, slots 0 and 1, and the sessions of a PF. -/
structure SpdmSupport where
  version : Nat := 0x14
  capabilities : List String := ["CERT", "CHAL", "MEAS", "KEY_EX", "ENCRYPT", "MAC", "MUT_AUTH", "HBEAT"]
  signing : String := "ML-DSA-65"
  keyEstablishment : String := "ML-KEM-768"
  hash : String := "SHA3-512"
  aead : String := "AES-256-GCM"
  slots : Nat := 2
  sessions : Nat := 4
  /-- Heartbeat period in seconds. -/
  heartbeat : Nat := 10
deriving DecidableEq, Repr

/-- The support of this module. -/
def spdmSupport : SpdmSupport := {}

/-- GET_VERSION (R400, Table 16.7): version 1.4, in every state. -/
def execGetVersion (port : Nat) (s : State) : Host.Outcome State Fault Refusal :=
  .next (if s.mailbox port then s.spdm (.number spdmSupport.version) else s)

/-- The certificate chain of a slot. -/
def Security.chain (x : Security) (slot : Nat) : Buf :=
  match slot with | 0 => x.chain0 | 1 => x.chain1 | _ => Buf.none

/-- GET_CERTIFICATE (R399, R400): a window of the chain of slot 0 or 1. -/
def execGetCertificate (port slot offset len : Nat) (s : State) : Host.Outcome State Fault Refusal :=
  .next (spdmRequest port (fun t =>
    let b := t.sec.chain slot
    if b.len ≤ offset then t.spdm .error
    else
      let n := Nat.min len (b.len - offset)
      t.spdm (.data { len := n, bytes := b.bytes.slice offset n 0 })) s)

/-- A response signed with the identity key. -/
def State.signedReply (s : State) (kind : Nat) (content : List Byte) (parts : List (List Byte)) : State :=
  match s.sec.seed with
  | none => s.spdm .error
  | some d => s.spdm (.signed content (Config.mlDsaSign d (Config.transcript kind parts)))

/-- CHALLENGE (R400): signed with the identity key, for a slot that holds a chain. -/
def execChallenge (port slot : Nat) (nonce : List Byte) (s : State) : Host.Outcome State Fault Refusal :=
  .next (spdmRequest port (fun t =>
    let b := t.sec.chain slot
    if b.len = 0 then t.spdm .error else t.signedReply 1 nonce [b.toBytes, nonce]) s)

/-- Measurement `i` of Table 16.5. -/
def State.measurement (s : State) (i : Nat) : List Byte :=
  let b := s.bank s.sec.bootBank
  if i ≤ 6 then Config.componentDigest i (b.headerDigest 64)
  else if i = 7 then b.headerDigest 64
  else if i = 8 then Config.stateDigest [s.lifeCycle.code, s.sec.svn, s.sec.slotRevoked, s.sec.bootSlot]
  else if i = 9 then Config.policyDigest s.sec.signRequired
    ((List.range 4).map fun k => tget [] s.sec.programDigest k)
  else s.sec.measurement10

/-- GET_MEASUREMENTS (R401): index 0 asks for their number, 0xFF for all, 1-10 for one. -/
def execGetMeasurements (port index : Nat) (nonce : List Byte) (s : State) :
    Host.Outcome State Fault Refusal :=
  .next (spdmRequest port (fun t =>
    if index = 0 then t.spdm (.number 10)
    else
      let is := if index = 0xFF then (List.range 10).map (· + 1) else if index ≤ 10 then [index] else []
      let content := is.flatMap t.measurement
      if is.isEmpty then t.spdm .error else t.signedReply 2 content [content, nonce]) s)

/-- KCLK ticks after which a session without a heartbeat has ended: two heartbeat periods of 10 s. -/
def sessionTicks : Nat := 2 * spdmSupport.heartbeat * 3000000

/-- The sessions of a port that are alive. -/
def State.liveSessions (s : State) (port : Nat) : List Session :=
  s.sec.sessions.filter fun x => x.port == port && decide (s.now ≤ x.beat + sessionTicks)

/-- KEY_EXCHANGE (R400, R402): ML-KEM-768 opens a session, at most 4 per PF. A session has the owner's
authority when the requester authenticated with a chain of the owner root, which slot 1 must hold. -/
def execKeyExchange (port : Nat) (encapKey : List Byte) (ownerAuth : Bool) (s : State) :
    Host.Outcome State Fault Refusal :=
  .next (spdmRequest port (fun t =>
    if spdmSupport.sessions ≤ (t.liveSessions port).length then t.spdm .error
    else
      let d := t.sec.draws
      let ct := Config.mlKemEncap d encapKey
      let t1 := t.modSec fun x => { x with
        draws := d + 1, nextSession := x.nextSession + 1
        sessions := (x.sessions.filter fun y => y.port != port || decide (t.now ≤ y.beat + sessionTicks)) ++
          [{ id := x.nextSession, port := port, owner := ownerAuth && decide (0 < x.chain1.len)
             beat := t.now }] }
      t1.signedReply 3 ct [encapKey, ct]) s)

/-- The live session of a port and identifier. -/
def State.session (s : State) (port id : Nat) : Option Session :=
  (s.liveSessions port).find? fun x => x.id == id

/-- HEARTBEAT (R400). -/
def execHeartbeat (port session : Nat) (s : State) : Host.Outcome State Fault Refusal :=
  .next (spdmRequest port (fun t =>
    match t.session port session with
    | none => (t.modSec fun x => { x with sessions := x.sessions.filter fun y => y.id != session || y.port != port }).spdm .error
    | some _ => (t.modSec fun x => { x with
        sessions := x.sessions.map fun y => if y.id = session ∧ y.port = port then { y with beat := t.now } else y }).spdm
          (.number session)) s)

/-- PROGRAM_KEY_SET (R402): in a session whose requester authenticated to the owner root. -/
def execProgramKeySet (port session : Nat) (dw10 : Word) (key : Buf) (s : State) :
    Host.Outcome State Fault Refusal :=
  .next (spdmRequest port (fun t =>
    match t.session port session with
    | none => t.spdm .error
    | some x =>
      if x.owner && keyFieldsOk dw10 key then (t.modSec fun y => y.setKey dw10 key).spdm (.number session)
      else t.spdm .error) s)

end Sys2Proof.Machine
end

