-- ==== Sys2Proof/Machine/Tiers.lean ====
section
/-! DEFINITION. The tier manager's events: moves, the hoist-die engines and first-touch copies
(R171-R178, R209, R353). -/

namespace Sys2Proof.Machine

/-- True while a first-touch copy of die `d` is under way. -/
def State.copies (s : State) (d : Nat) : Bool := (s.die d).touched.any (·.copying)

/-! ## MOVE_START -/

/-- MOVE_START (R171-R173, R180, R182): the queued move of die `die` that goes first starts on a free move
slot; hoist moves that the windows of running programs now need, and evictions that the free floors need, are
requested first. First-touch copies go before every class of moves: none starts while one waits (R354). -/
def execMoveStart (die : Nat) (s : State) : Host.Outcome State Fault Refusal :=
  let s1 := s.issueHoists.holdFloors die
  .next (if (s.die die).hoist.stopped = true ∨ s.copies die = true ∨ 64 ≤ s.movesActive die then s
    else (s1.startNext die (s1.moveOrder die)).settle)

/-! ## SPACE_TILE_LANDED -/

/-- A T3 tile that cannot be read (R178, R205 code 0x08): the hoist engine of the die stops with its
record, every move of the die is abandoned, and the tile is marked poisoned. -/
def State.tileUnreadable (s : State) (d j t : Nat) : State :=
  let a := tileAddr d j t
  let s1 := ((s.die d).slots.filter fun x => x.2.st == 2).foldl (fun u x => u.abandonMove d x.1) s
  let s2 := s1.modExtent d j fun e => { e with
    poison := if e.poison.contains t then e.poison else e.poison ++ [t] }
  let s3 := s2.modDie d fun x => { x with hoist :=
    if x.hoist.errValid then { x.hoist with armed := 0, stopped := true, overrun := true
                                            stops := x.hoist.stops + 1 }
    else { x.hoist with armed := 0, stopped := true, errValid := true, stops := x.hoist.stops + 1
                        err0 := 0x08, err1 := BitVec.ofNat 64 (a + 2 ^ 48 * 2) } }
  s3.journal (s3.stamped 2 { kind := 0x0A, detail := 0x08, address := addrField a })

/-- The first IU of the space tile at `a` in T3, numbered by its address. -/
def tileIu (a : Nat) : Nat := a / 16384

/-- The stacks that the tile at `a` may be programmed on, in order: tile number i of its extent goes to stack i mod 32, or
to the next one in service (R168). None while no stripe can be kept. -/
def State.tileStacks (s : State) (a : Nat) : List Nat :=
  if s.stacksUp.length < 2 then []
  else ((List.range 32).map fun i => (addrTile a + i) % 32).filter s.stacksUp.contains

/-- The four IUs of the tile at `a`. -/
def State.tileData (s : State) (a : Nat) : List Mem :=
  (List.range 4).map fun i => s.ts.mem.slice (a + 16384 * i) 16384 0

/-- The four IUs of the space tile at `a` programmed as one pSLC unit on the first of its stacks that has room (R168, R265,
R267), and read back; the WRITE record of the pages that pass. No answer
while the write cache has no room; an empty one when the read-back fails and strikes the block. -/
def State.programTile (s : State) (a : Nat) : Option (State × List (Nat × Nat)) :=
  match s.programUnit (s.tileStacks a) (s.tileData a) with
  | none => none
  | some (s1, ps) =>
    let x := (ps.foldl (fun t p => t.countRead p.1) s1).drawReadBack
    if x.2 then
      some (x.1.modFlash fun f => { f with hostIu := f.hostIu + 4 },
        (List.range 4).zip (ps.map (·.1)) |>.map fun e => (tileIu a + e.1, e.2))
    else some (x.1.strike (pageBlock ((ps.headD (0, 0)).1)), [])

/-- Space tile `t` of slot `j` landed in its destination (R171): counted by direction, and the move committed with the last
tile. -/
def State.landed (s : State) (d j t : Nat) : State :=
  let e := s.extent d j
  let a := tileAddr d j t
  let s1 := (s.eccFresh (tierMemory e.destTier) 0 a 65536).modExtent d j fun x => { x with
    landed := insSorted t x.landed, started := true
    waiting := x.waiting.map fun w => (w.1, w.2.1.filter (fun y => y != t), w.2.2) }
  let s2 := s1.modDie d fun x =>
    if e.destTier < e.copyTier then { x with promoted := x.promoted + 1 }
    else { x with demoted := x.demoted + 1 }
  if ((s2.extent d j).toLand).isEmpty then
    let s3 := s2.modExtent d j fun x => x.committed (s2.dieNow d)
    if e.destTier < e.copyTier then s3
    else s3.eccFresh (tierMemory e.copyTier) 0 (extentBase d j) (e.length * 65536)
  else s2

/-- Space tile `t` of slot `j` on its way into its destination: a tile for T3 follows the path of a host write and lands
once its WRITE record is durable (R265). It does not land while no program unit is free or its read-back has failed. -/
def State.landTile (s : State) (d j t : Nat) : State :=
  if (s.extent d j).destTier ≠ 3 then s.landed d j t
  else
    match s.programTile (tileAddr d j t) with
    | none => s
    | some (s1, []) => s1
    | some (s1, ius) => (s1.commitGroup [.write 0 (4 * tileIu (tileAddr d j t)) 16 ius]).landed d j t

/-- The pages of a T3 tile read (R280). -/
def State.countTile (s : State) (a : Nat) : State :=
  ((List.range 4).filterMap fun i =>
    match tget 0 s.flash.map (tileIu a + i) with
    | 0 => none
    | p + 1 => some p).foldl State.countRead s

/-- SPACE_TILE_LANDED (R171, R174-R178): the next space tile of the move of slot `slot` of die `die` lands.
The move reads its source as a consumer: a poisoned or uncorrectable codeword resets (R178, R376), a T3
tile that is not readable stops the hoist engine. No space tile lands while a first-touch copy waits (R354). -/
def execSpaceTileLanded (die slot : Nat) (readable : Bool) (s : State) :
    Host.Outcome State Fault Refusal :=
  let e := s.extent die slot
  .next (if e.st ≠ 2 ∨ (s.die die).hoist.stopped = true ∨ s.copies die = true then s
  else
    let region := if e.copyTier = 1 ∨ e.destTier = 1 then some (4 * die + e.slice) else none
    match region.filter fun g => (s.region g).st != .active with
    | some g => s.wake g
    | none =>
      match e.nextTile with
      | none => s
      | some t =>
        let a := tileAddr die slot t
        if e.copyTier = 3 then
          (if readable then (s.countTile a).landTile die slot t else (s.countTile a).tileUnreadable die slot t).settle
        else if e.copyTier = 2 ∧ ((s.die die).poison.any fun w =>
            decide (a ≤ 256 * w) && decide (256 * w < a + 65536)) = true then
          (s.dramConsumed die a).settle
        else
          match s.eccRead (tierMemory e.copyTier) 0 a 65536 with
          | (s1, none) => (s1.landTile die slot t).settle
          | (s1, some w) =>
            if e.copyTier = 1 then (s1.sramError (4 * die + e.slice) 0x02 0 w 0xFF).settle
            else (s1.dramConsumed die w).settle)

/-! ## HOIST_ENGINE_RE_ARM -/

/-- HOIST_ENGINE_RE_ARM (R209): the tier manager of die `die` has read the record of its hoist-die engine
and re-arms every channel; its moves go on under R176. -/
def execHoistEngineReArm (die : Nat) (s : State) : Host.Outcome State Fault Refusal :=
  .next (if (s.die die).hoist.stopped then
      s.modDie die fun x => { x with hoist := { x.hoist with
        stopped := false, errValid := false, overrun := false, armed := 0xFFFF } }
    else s)

/-! ## FIRST_TOUCH_COPY_DONE -/

/-- A tile's contents put into the shadow space, its protection cleared (R353). -/
def State.shadowTile (s : State) (d j t : Nat) : State :=
  let a := tileAddr d j t
  let s1 := (s.touchEnds d j t).modDie d fun x => { x with shadowMem := x.shadowMem.copyIn a s.ts.mem a 65536 }
  (s1.modExtent d j fun e => { e with writeProtect := e.writeProtect.filter fun w => w != t }).modCkpt
    fun c => { c with
      shadow := c.shadow ++ [(d, j, t)], shadowPeak := Nat.max c.shadowPeak (c.shadow.length + 1) }

/-- FIRST_TOUCH_COPY_DONE (R353): the copy of space tile `tile` of slot `slot` into the shadow space of die
`die` completes, its protection is cleared, and the write that waited proceeds. -/
def execFirstTouchCopyDone (die slot tile : Nat) (s : State) : Host.Outcome State Fault Refusal :=
  let a := tileAddr die slot tile
  let e := s.extent die slot
  .next (if ((s.die die).touched.any fun w => w.slot == slot && w.tile == tile && w.copying) = false ∨
      e.writeProtect.contains tile = false ∨ (s.die die).hoist.stopped = true then s
  else
    let t := e.servedFrom tile
    if t = 2 ∧ ((s.die die).poison.any fun w =>
        decide (a ≤ 256 * w) && decide (256 * w < a + 65536)) = true then (s.dramConsumed die a).settle
    else
      match s.eccRead (tierMemory t) 0 a 65536 with
      | (s1, none) => (s1.shadowTile die slot tile).settle
      | (s1, some w) =>
        if t = 1 then (s1.sramError (4 * die + e.slice) 0x02 0 w 0xFF).settle
        else (s1.dramConsumed die w).settle)

end Sys2Proof.Machine
end

