-- ==== Sys2Proof/Machine/Walker.lean ====
section
/-! DEFINITION. The walker of a bench: a search's checks, the descent of the upper levels, the expansion
of candidates, page reads and result blocks (R230-R255). -/

namespace Sys2Proof.Machine

/-! ## The lode header (Tables 10.2 and 10.3) -/

/-- A lode header taken apart; level entries, vector and page extents are read from `raw`. -/
structure Lode where
  metric : Nat
  levels : Nat
  nAttr : Nat
  generation : Nat
  nodes : Nat
  dim : Nat
  maxDegree : Nat
  nodeBytes : Nat
  perPage : Nat
  schema : Nat
  vecNodes : Nat
  base : Nat
  nsid : Nat
  lba : Nat
  tomb : Nat
  raw : Mem
deriving DecidableEq, Repr

/-- The header whose 1,024 bytes start at offset 0 of `h`. -/
def lodeOf (h : Mem) : Lode :=
  { metric := h.getLe 5 1, levels := h.getLe 6 1, nAttr := h.getLe 7 1, generation := h.getLe 8 8
    nodes := h.getLe 0x10 4, dim := h.getLe 0x14 2, maxDegree := h.getLe 0x16 2
    nodeBytes := h.getLe 0x18 2, perPage := h.getLe 0x1A 2, schema := h.getLe 0x1C 4
    vecNodes := h.getLe 0x24 4, base := h.getLe 0x28 1, nsid := h.getLe 0x2C 4, lba := h.getLe 0x30 8
    tomb := h.getLe 0x38 8, raw := h }

/-- Offset of level `l`'s entries within the lode extent. -/
def Lode.levelOffset (x : Lode) (l : Nat) : Nat := x.raw.getLe (0x40 + 16 * (l - 1)) 8
/-- Entries of level `l`. -/
def Lode.entries (x : Lode) (l : Nat) : Nat := x.raw.getLe (0x48 + 16 * (l - 1)) 4
/-- Neighbour slots per entry of level `l`. -/
def Lode.degree (x : Lode) (l : Nat) : Nat := x.raw.getLe (0x4C + 16 * (l - 1)) 2
/-- Bytes of an entry of level `l`. -/
def Lode.entryBytes (x : Lode) (l : Nat) : Nat := x.raw.getLe (0x4E + 16 * (l - 1)) 2
/-- Address of node `n`'s vector. -/
def Lode.vector (x : Lode) (n : Nat) : Nat :=
  x.raw.getLe (0x100 + 8 * (n / x.vecNodes)) 8 + n % x.vecNodes * x.dim
/-- Address of base-level page `p` in the page extents. -/
def Lode.page (x : Lode) (p : Nat) : Nat := x.raw.getLe (0x300 + 8 * (p / 131072)) 8 + p % 131072 * 16384

/-- True when the entry of level `l` keeps Table 10.3, or is zero at or above level_count. -/
def Lode.levelOk (x : Lode) (l : Nat) : Bool :=
  if l < x.levels then
    decide (x.levelOffset l % 8 = 0) && decide (1 ≤ x.entries l) && decide (x.entries l ≤ x.nodes) &&
      decide (1 ≤ x.degree l) && decide (x.degree l ≤ 64) && x.entryBytes l == 8 + 4 * x.degree l
  else x.raw.zeroAt (0x40 + 16 * (l - 1)) 16

/-- True when `used` base addresses from offset `o` are bases of extents and the rest of `all` is zero. -/
def basesOk (h : Mem) (o used all : Nat) : Bool :=
  decide (used ≤ all) && (List.range used).all (fun i => isBase (h.getLe (o + 8 * i) 8)) &&
    h.zeroAt (o + 8 * used) (8 * (all - used))

/-- True when a header keeps Tables 10.2 and 10.3 (R234). -/
def Lode.ok (x : Lode) : Bool :=
  let h := x.raw
  h.getLe 0 4 == 0x10DE5EA7 && h.getLe 4 1 == 1 && (x.metric == 1 || x.metric == 2) &&
    decide (1 ≤ x.levels) && decide (x.levels ≤ 8) && decide (x.nAttr ≤ 32) &&
    decide (1 ≤ x.generation) && decide (1 ≤ x.nodes) && decide (x.nodes ≤ 2 ^ 31) &&
    decide (8 ≤ x.dim) && decide (x.dim ≤ 1024) && decide (x.dim % 8 = 0) &&
    decide (1 ≤ x.maxDegree) && decide (x.maxDegree ≤ 128) &&
    x.nodeBytes == 8 + 8 * x.nAttr + 4 * x.maxDegree && x.perPage == 16320 / x.nodeBytes &&
    decide (1 ≤ x.vecNodes) && decide (x.vecNodes * x.dim ≤ 2 ^ 31) &&
    (x.base == 1 || x.base == 2) && h.zeroAt 0x29 3 &&
    (if x.base = 2 then decide (x.lba % 4 = 0) else x.nsid == 0 && x.lba == 0) &&
    isBase x.tomb && h.zeroAt 0xB0 80 && ((List.range 7).all fun i => x.levelOk (i + 1)) &&
    basesOk h 0x100 (ceilDiv x.nodes x.vecNodes) 64 &&
    (if x.base = 1 then basesOk h 0x300 (ceilDiv (ceilDiv x.nodes x.perPage) 131072) 32
     else h.zeroAt 0x300 256)

/-! ## The search descriptor (Table 10.6) -/

/-- Bytes from one result block to the next (R242). -/
def resultStride (k : Nat) : Nat := 64 * ceilDiv (32 + 8 * k) 64

/-- The search that the descriptor at `a` of `m` describes. -/
def searchOf (m : Mem) (a pc : Nat) : Search :=
  { kind := m.getLe a 1, k := m.getLe (a + 4) 2, ef := m.getLe (a + 6) 2
    useFilter := bitOf (m.getLe (a + 3) 1) 0, exhaustive := bitOf (m.getLe (a + 3) 1) 1
    lode := m.getLe (a + 8) 8, generation := m.dword (a + 0x10), maxVisits := m.getLe (a + 0x18) 4
    patience := m.getLe (a + 0x1C) 2, inflight := m.getLe (a + 0x1E) 1, queryAddr := m.getLe (a + 0x20) 4
    resultAddr := m.getLe (a + 0x24) 4, pageBuf := m.getLe (a + 0x28) 4
    pageBufCount := m.getLe (a + 0x2C) 2, pc := pc
    queries := List.replicate (m.getLe (a + 2) 1) {} }

/-- Address of the filter program that a descriptor names. -/
def filterAddr (m : Mem) (a : Nat) : Nat := m.getLe (a + 0x30) 4

/-- The checks of R241 that need no lode header: fields, reserved fields and T0 ranges. -/
def searchOk (m : Mem) (a : Nat) : Bool :=
  let v := searchOf m a 0
  m.getLe a 1 == 4 && m.getLe (a + 1) 1 == 1 && decide (1 ≤ v.queries.length) &&
    decide (v.queries.length ≤ 16) && decide (m.getLe (a + 3) 1 < 4) && decide (1 ≤ v.k) &&
    decide (v.k ≤ 256) && decide (v.k ≤ v.ef) && decide (v.ef ≤ 256) && isBase v.lode &&
    decide (1 ≤ v.maxVisits) && decide (v.maxVisits ≤ 16777215) && decide (1 ≤ v.inflight) &&
    decide (v.inflight ≤ 4) && m.zeroAt (a + 0x1F) 1 && decide (v.queryAddr % 64 = 0) &&
    decide (v.resultAddr % 64 = 0) && decide (v.pageBuf % 64 = 0) && m.zeroAt (a + 0x2E) 2 &&
    m.zeroAt (a + 0x34) 76 &&
    decide (v.resultAddr + v.queries.length * resultStride v.k ≤ 0x800000) &&
    (if v.useFilter then decide (filterAddr m a % 8 = 0) && decide (filterAddr m a + 16 ≤ 0x800000)
     else filterAddr m a == 0)

/-- The checks of R241 that need the lode header: the queries' range, the page buffer and the filter's
schema. -/
def Search.fits (v : Search) (x : Lode) : Bool :=
  decide (v.queryAddr + v.queries.length * x.dim ≤ 0x800000) &&
    (if x.base = 2 then decide (16 ≤ v.pageBufCount) && decide (v.pageBufCount ≤ 256) &&
        decide (v.pageBuf + v.pageBufCount * 16384 ≤ 0x800000)
     else v.pageBuf == 0 && v.pageBufCount == 0) &&
    (!v.useFilter || predSchema v.filter 0 == x.schema)

/-! ## Ends of a search (R234, R241, R250) -/

/-- The search ends with a status; last_cause notes why (Table 10.8). -/
def State.walkEnd (s : State) (x : Site) (st : Status) (cause : Nat) : State :=
  let w := s.siteDword x
  ((s.modBench x.bench fun b => { b with walker := { b.walker with lastCause := cause } }).unitStop
    x).benchEnd x.bench st w

/-- The descriptor is rejected: fault 0x11. -/
def State.walkReject (s : State) (x : Site) : State :=
  (s.modBench x.bench fun b => { b with walker := { b.walker with lastCause := 1 } }).siteFault x 0x11

/-! ## Distances and the visited filter (R235, R247) -/

/-- The exact distance of two vectors of `dim` codes (R235). -/
def distance (metric dim : Nat) (q : Mem) (qa : Nat) (v : Mem) (va : Nat) : Int :=
  (List.range dim).foldl (fun d i =>
    let a := signed 8 (q.getLe (qa + i) 1)
    let b := signed 8 (v.getLe (va + i) 1)
    if metric = 1 then d + (a - b) * (a - b) else d - a * b) 0

/-- The bit of the visited filter that a node uses. -/
def seenBit (n : Nat) : Nat := n * 0x9E3779B1 % 2 ^ 32 / 2 ^ 13

/-- True when a node counts as visited. -/
def Query.seenNode (q : Query) (n : Nat) : Bool := q.seen.contains (seenBit n)

/-- A node marked as visited. -/
def Query.mark (q : Query) (n : Nat) : Query :=
  { q with seen := if q.seenNode n then q.seen else seenBit n :: q.seen }

/-- A neighbour slot that names nothing, counted. -/
def Query.dangle (q : Query) : Query := { q with dangling := q.dangling + 1 }

/-- The distance of node `n` to query `j` computed: the query from T0, the vector from its extent. `k`
takes the distance and the query with the visit counted; BN_WALK_VISITS counts it at once (Table 10.8). -/
def State.walkDist (s : State) (x : Site) (v : Search) (l : Lode) (j n : Nat) (q : Query)
    (k : Int → Query → State → State) : State :=
  let qa := v.queryAddr + j * l.dim
  s.benchRead x 1 qa l.dim false fun qm t =>
    t.benchRead x 2 (l.vector n) l.dim false fun vm u =>
      k (distance l.metric l.dim qm qa vm (l.vector n)) { q with visits := q.visits + 1 }
        (u.modBench x.bench fun b => { b with walker := { b.walker with visits := b.walker.visits + 1 } })

/-! ## Candidates and results (R244) -/

/-- `c` put behind the candidates that are not farther. -/
def insertCand (c : Cand) : List Cand → List Cand
  | [] => [c]
  | y :: r => if c.dist < y.dist then c :: y :: r else y :: insertCand c r

/-- insert_q: the new queue and whether the candidate was inserted. -/
def Query.insertQ (q : Query) (ef : Nat) (d : Int) (n : Nat) : Query × Bool :=
  let c : Cand := { dist := d, node := n }
  if q.q.length < ef then ({ q with q := insertCand c q.q }, true)
  else if (q.q.getLast?).all fun y => d < y.dist then
    ({ q with q := insertCand c q.q.dropLast }, true)
  else (q, false)

/-- A result put behind those that are not farther. -/
def insertRes (d : Int) (n : Nat) : List (Int × Nat) → List (Int × Nat)
  | [] => [(d, n)]
  | y :: r => if d < y.1 then (d, n) :: y :: r else y :: insertRes d n r

/-- insert_r. -/
def Query.insertR (q : Query) (k : Nat) (d : Int) (n : Nat) : Query × Bool :=
  if q.r.length < k then ({ q with r := insertRes d n q.r }, true)
  else if (q.r.getLast?).all fun y => d < y.1 then ({ q with r := insertRes d n q.r.dropLast }, true)
  else (q, false)

/-- The nearest candidate that is not expanded. -/
def Query.nearest (q : Query) : Option Cand := q.q.find? fun c => !c.expanded

/-! ## The result block (R242, R248) -/

/-- The bytes of query `j`'s result block. -/
def Query.block (q : Query) (v : Search) : List Byte :=
  leBytes 2 q.r.length ++ [BitVec.ofNat 8 (b2n (decide (q.r.length < v.k)) + 2 * b2n v.useFilter)] ++
    leBytes 1 q.stopReason ++ leBytes 4 q.visits ++ leBytes 4 q.expansions ++ leBytes 4 q.pagesRead ++
    leBytes 4 q.pagesShared ++ leBytes 4 q.dangling ++ leBytes 4 q.tombstoned ++ leBytes 4 q.filteredOut ++
    q.r.flatMap fun e => leBytes 4 e.2 ++ leBytes 4 (wrapNat 32 e.1)

/-- The search of bench `b` changed by `f`. -/
def State.modSearch (s : State) (b : Nat) (f : Search → Search) : State :=
  s.modBench b fun x => { x with walker := { x.walker with search := x.walker.search.map f } }

/-- `t`, what a row has made of the walker of bench `b` in `s`. Where its work must wait and starts anew later
(`waited`), the distances and expansions made so far are not counted. -/
def State.walked (s t : State) (b : Nat) (waited : Bool) : State :=
  if waited then
    t.modBench b fun x => { x with walker := { x.walker with
      visits := (s.bench b).walker.visits, expansions := (s.bench b).walker.expansions } }
  else t

/-- Query `j` brought from `q0` to `q`: the page counters of Table 10.8 follow. -/
def State.putQuery (s : State) (b j : Nat) (q0 q : Query) : State :=
  (s.modSearch b fun v => { v with queries := listMod v.queries j fun _ => q }).modBench b fun x =>
    { x with walker := { x.walker with
        pages := x.walker.pages + BitVec.ofNat 64 (q.pagesRead - q0.pagesRead)
        shared := x.walker.shared + BitVec.ofNat 64 (q.pagesShared - q0.pagesShared) } }

/-- A query that has stopped writes its block, and its visits reach the monitors (source 0x0B of Table 18.2); the search ends when every query has stopped (R245). -/
def State.endQuery (s : State) (x : Site) (v : Search) (j : Nat) (q0 q : Query) (reason : Nat) : State :=
  let q1 := { q with stopped := true, stopReason := reason, inFlight := [] }
  s.benchWrite x 1 (v.resultAddr + j * resultStride v.k) (q1.block v) fun t =>
    let t1 := (t.putQuery x.bench j q0 q1).observe 0x0B x.bench (q1.visits : Nat)
    if (v.queries.zipIdx.all fun e => e.1.stopped || e.2 == j) then
      (t1.modBench x.bench fun b => { b with walker := { b.walker with search := none } }).busy
        (regionOf x.bench)
    else t1

/-- What follows an expansion: the query converges when nothing is left to expand (R245). -/
def State.nextOrConverge (s : State) (x : Site) (v : Search) (j : Nat) (q0 q : Query) : State :=
  if q.nearest = none ∧ q.inFlight = [] then s.endQuery x v j q0 q 1 else s.putQuery x.bench j q0 q

/-! ## The descent (R232, R243) -/

/-- An entry of an upper level: node, down link and neighbour slots. -/
structure UpperEntry where
  node : Nat
  down : Nat
  slots : List Nat
deriving DecidableEq, Repr

/-- Entry `i` of level `l` read from the lode extent. An entry that names a node outside the lode, or
that lies outside its level, breaks the lode (DESIGN CHOICE, notes/assumptions/20.md). -/
def State.upperEntry (s : State) (x : Site) (v : Search) (l : Lode) (lev i : Nat)
    (k : UpperEntry → State → State) : State :=
  if l.entries lev ≤ i then s.walkEnd x (.vendor 0xC4) 2
  else
    let a := v.lode + l.levelOffset lev + i * l.entryBytes lev
    s.benchRead x 2 a (l.entryBytes lev) false fun m t =>
      let e : UpperEntry := { node := m.getLe a 4, down := m.getLe (a + 4) 4
                              slots := (List.range (l.degree lev)).map fun i => m.getLe (a + 8 + 4 * i) 4 }
      if l.nodes ≤ e.node then t.walkEnd x (.vendor 0xC4) 2 else k e t

/-- The neighbour slots of an entry tried in order: the best entry found, its distance and the query. -/
def State.tryNeighbours (x : Site) (v : Search) (l : Lode) (j lev : Nat)
    (k : Option UpperEntry → Int → Query → State → State) :
    List Nat → Option UpperEntry → Int → Query → State → State
  | [], best, d, q, s => k best d q s
  | i :: r, best, d, q, s =>
    if i = 0xFFFFFFFF then State.tryNeighbours x v l j lev k r best d q s
    else if l.entries lev ≤ i then State.tryNeighbours x v l j lev k r best d q.dangle s
    else
      s.upperEntry x v l lev i fun e t =>
        if q.seenNode e.node then State.tryNeighbours x v l j lev k r best d q t
        else t.walkDist x v l j e.node (q.mark e.node) fun ds q1 u =>
          if ds < d then State.tryNeighbours x v l j lev k r (some e) ds q1 u
          else State.tryNeighbours x v l j lev k r best d q1 u

/-- The greedy descent at one level; `n` bounds the moves by the level's entries. -/
def State.greedy (x : Site) (v : Search) (l : Lode) (j lev : Nat)
    (k : UpperEntry → Int → Query → State → State) :
    Nat → UpperEntry → Int → Query → State → State
  | 0, e, d, q, s => k e d q s
  | n + 1, e, d, q, s =>
    State.tryNeighbours x v l j lev (fun best d1 q1 t =>
      match best with
      | none => k e d1 q1 t
      | some e1 => State.greedy x v l j lev k n e1 d1 q1 t) e.slots none d q s

/-- The levels from `lev` down to 1; `k` takes the base-level node and its distance. -/
def State.descend (x : Site) (v : Search) (l : Lode) (j : Nat) (k : Nat → Int → Query → State → State) :
    Nat → UpperEntry → Int → Query → State → State
  | 0, e, d, q, s => if l.nodes ≤ e.down then s.walkEnd x (.vendor 0xC4) 2 else k e.down d q s
  | n + 1, e, d, q, s =>
    State.greedy x v l j (n + 1) (fun e1 d1 q1 t =>
      if n = 0 then State.descend x v l j k 0 e1 d1 q1 t
      else t.upperEntry x v l n e1.down fun e2 u => State.descend x v l j k n e2 d1 q1 u)
      (l.entries (n + 1) + 1) e d q s

/-- Query `j` started: the upper levels descended, the base level entered with one candidate. -/
def State.startQuery (s : State) (x : Site) (v : Search) (l : Lode) (j : Nat) (k : Query → State → State) :
    State :=
  let enter := fun (n : Nat) (d : Int) (q : Query) (t : State) =>
    k (({ q with seen := [], q := [{ dist := d, node := n }] } : Query).mark n) t
  if v.exhaustive then k {} s
  else if l.levels = 1 then s.walkDist x v l j 0 {} fun d q t => enter 0 d q t
  else
    s.upperEntry x v l (l.levels - 1) 0 fun e t =>
      t.walkDist x v l j e.node {} fun d q u =>
        State.descend x v l j enter (l.levels - 1) e d (q.mark e.node) u

/-- Every query started, in order. -/
def State.startQueries (x : Site) (v : Search) (l : Lode) (k : List Query → State → State) :
    Nat → List Query → State → State
  | 0, qs, s => k qs s
  | n + 1, qs, s =>
    s.startQuery x v l qs.length fun q t => State.startQueries x v l k n (qs ++ [q]) t

/-! ## WALKER_SEARCH -/

/-- The lode header read and checked, and every query started (R234, R241, R243). -/
def State.openLode (s : State) (x : Site) (v : Search) : State :=
  s.benchRead x 2 v.lode 1024 false fun m t =>
    let h := Mem.copyIn [] 0 m v.lode 1024
    let l := lodeOf h
    if l.ok = false then t.walkEnd x (.vendor 0xC4) 2
    else if v.fits l = false then t.walkReject x
    else if l.generation ≠ v.generation.toNat then t.walkEnd x (.vendor 0xC3) 4
    else
      State.startQueries x v l (fun qs u =>
        let u1 := u.modBench x.bench fun b => { b with walker := { b.walker with
          launch := none, search := some { v with header := h, queries := v.queries } } }
        qs.zipIdx.foldl (fun w e => w.putQuery x.bench e.2 {} e.1) u1) v.queries.length [] t

/-- The descriptor at `a` of space `sp` validated, then its filter program, then the lode opened (R241).
-/
def State.openSearch (s : State) (x : Site) (sp a : Nat) : State :=
  s.benchRead x sp a 128 false fun m t =>
    let v := searchOf m a x.pc
    let fa := filterAddr m a
    if searchOk m a = false then t.walkReject x
    else if v.useFilter then
      t.benchRead x 1 fa 16 false fun p u =>
        if predTerms p fa < 1 ∨ 256 < predTerms p fa ∨ 256 < predPool p fa ∨
            0x800000 < fa + predBytes p fa then u.walkReject x
        else u.benchRead x 1 fa (predBytes p fa) false fun p w =>
          if (predCheck p fa none).isSome then w.walkReject x
          else w.openLode x { v with filter := Mem.copyIn [] 0 p fa (predBytes p fa) }
    else t.openLode x v

/-- WALKER_SEARCH (R239, R241, R243): the search that a step launched on bench `bench` is validated and
its queries descend to the base level. A retired walker gives fault 0x11. -/
def execWalkerSearch (bench : Nat) (s : State) : Host.Outcome State Fault Refusal :=
  .next (match (s.bench bench).walker.launch with
  | none => s
  | some (a, sp, pc) =>
    let x : Site := { bench := bench, pc := pc, walker := true }
    if s.benchAwake bench then
      if (s.bench bench).walker.retired then s.after (s.siteFault x 0x11)
      else
        let t := s.openSearch x sp a
        s.after (s.walked t bench (t.bench bench).walker.launch.isSome)
    else s)

/-! ## Page reads and the page buffer (R249, R250) -/

/-- The base-level page of node `n`. -/
def Lode.pageOf (l : Lode) (n : Nat) : Nat := n / l.perPage

/-- The buffer slot that a page holds. -/
def Search.slotOf (v : Search) (p : Nat) : Option Nat := (v.slots.find? fun e => e.2.1 == p).map (·.1)

/-- True when a page can be used: it holds a slot and its read has ended. -/
def Search.pageReady (v : Search) (l : Lode) (p : Nat) : Bool :=
  l.base == 1 || ((v.slotOf p).isSome && !v.reading.contains p)

/-- Pages that expansions in flight use. -/
def Search.used (v : Search) (l : Lode) : List Nat :=
  v.queries.flatMap fun q => q.inFlight.map fun e => l.pageOf e.2

/-- The slot that a new read takes: a free one, or that of the page used least recently among those that
no expansion uses. -/
def Search.freeSlot (v : Search) (l : Lode) : Option Nat :=
  match firstIdx (fun i => !thas v.slots i) v.pageBufCount with
  | some i => some i
  | none =>
    ((v.slots.filter fun e => !(v.used l).contains e.2.1 && !v.reading.contains e.2.1).foldl
      (fun (m : Option (Nat × Nat × Nat)) e =>
        match m with
        | none => some e
        | some y => if e.2.2 < y.2.2 then some e else some y) none).map (·.1)

/-- A page asked for by an expansion: found in the buffer or in flight (shared), or a read issued; none
while no slot or read is free. The flag tells whether it was shared. -/
def Search.askPage (v : Search) (l : Lode) (p : Nat) : Option (Search × Bool) :=
  let v1 := { v with useClock := v.useClock + 1 }
  match v.slotOf p with
  | some i => some ({ v1 with slots := tset v.slots i (p, v.useClock) }, true)
  | none =>
    if 16 ≤ v.reading.length then none
    else (v.freeSlot l).map fun i =>
      ({ v1 with slots := tset v.slots i (p, v.useClock), reading := v.reading ++ [p] }, false)

/-- An expansion's page noted in its query. -/
def Query.pageAsked (q : Query) (shared : Bool) : Query :=
  if shared then { q with pagesShared := q.pagesShared + 1 } else { q with pagesRead := q.pagesRead + 1 }

/-! ## Pages and records (R233, R234) -/

/-- The structural checks of a page header at `a` of `m`, page_crc left out. -/
def pageHeaderOk (m : Mem) (a : Nat) (l : Lode) (p : Nat) : Bool :=
  m.getLe a 4 == 0x10DE9A6E && m.getLe (a + 4) 2 == 1 && m.getLe (a + 0x10) 4 == p * l.perPage &&
    m.getLe (a + 6) 2 == Nat.min l.perPage (l.nodes - p * l.perPage)

/-- The checks of a node record at `a` of `m`. -/
def recordOk (m : Mem) (a : Nat) (l : Lode) (n : Nat) : Bool :=
  m.getLe a 4 == n && m.zeroAt (a + 6) 2 && decide (m.getLe (a + 4) 2 ≤ l.maxDegree)

/-- Offset of node `n`'s record in its page. -/
def Lode.recordAt (l : Lode) (n : Nat) : Nat := 0x40 + n % l.perPage * l.nodeBytes

/-- Every structural check of a whole page whose bytes start at offset 0 of `m`. -/
def pageOk (m : Mem) (l : Lode) (p : Nat) : Bool :=
  pageHeaderOk m 0 l p && m.getLe 0x3C 4 == crcWithout m 0 16384 0x3C &&
    (List.range (Nat.min l.perPage (l.nodes - p * l.perPage))).all fun i =>
      recordOk m (0x40 + i * l.nodeBytes) l (p * l.perPage + i)

/-- The record of node `n` read: from the page buffer, or straight from the page extents with the checks
of R234 on the page header and the record. `k` takes a memory and the record's address in it. -/
def State.walkRecord (s : State) (x : Site) (v : Search) (l : Lode) (n : Nat)
    (k : Mem → Nat → State → State) : State :=
  let p := l.pageOf n
  if l.base = 1 then
    let a := l.page p
    s.benchRead x 2 a 64 false fun m t =>
      t.benchRead x 2 (a + l.recordAt n) l.nodeBytes false fun r u =>
        if pageHeaderOk m a l p = false ∨ recordOk r (a + l.recordAt n) l n = false then
          u.walkEnd x (.vendor 0xC4) 3
        else if m.getLe (a + 8) 8 ≠ l.generation then u.walkEnd x (.vendor 0xC3) 4
        else k r (a + l.recordAt n) u
  else
    let a := v.pageBuf + (v.slotOf p).getD 0 * 16384 + l.recordAt n
    s.benchRead x 1 a l.nodeBytes false fun r t => k r a t

/-- The attribute words of a record (R246): those at or above n_attr read 0. -/
def recordAttr (m : Mem) (a : Nat) (l : Lode) (i : Nat) : Nat :=
  if i < l.nAttr then m.getLe (a + 8 + 8 * i) 8 else 0

/-- The neighbours of a record. -/
def recordNeighbours (m : Mem) (a : Nat) (l : Lode) : List Nat :=
  (List.range (m.getLe (a + 4) 2)).map fun i => m.getLe (a + 8 + 8 * l.nAttr + 4 * i) 4

/-- The tombstone bit of node `n` (R237). -/
def State.tombstone (s : State) (x : Site) (l : Lode) (n : Nat) (k : Bool → State → State) : State :=
  if l.tomb = 0 then k false s
  else s.benchRead x 2 (l.tomb + n / 8) 1 false fun m t => k (bitOf (m.getLe (l.tomb + n / 8) 1) (n % 8)) t

/-- A node offered to the results when it is eligible (R246): the query and whether R changed. -/
def Query.offer (q : Query) (v : Search) (tomb : Bool) (attr : Nat → Nat) (d : Int) (n : Nat) :
    Query × Bool :=
  if tomb then ({ q with tombstoned := q.tombstoned + 1 }, false)
  else if v.useFilter ∧ (predEval v.filter 0 attr).1 = none then
    ({ q with filteredOut := q.filteredOut + 1 }, false)
  else q.insertR v.k d n

/-! ## WALKER_EXPANSION -/

/-- The neighbours of an expanded node in order (R243). `k` takes whether anything was inserted, whether
the visit limit stopped the query, and the query. -/
def State.walkNeighbours (x : Site) (v : Search) (l : Lode) (j : Nat)
    (k : Bool → Bool → Query → State → State) : List Nat → Bool → Query → State → State
  | [], changed, q, s => k changed false q s
  | m :: r, changed, q, s =>
    if l.nodes ≤ m then State.walkNeighbours x v l j k r changed q.dangle s
    else if q.seenNode m then State.walkNeighbours x v l j k r changed q s
    else if v.maxVisits ≤ q.visits then k changed true (q.mark m) s
    else s.walkDist x v l j m (q.mark m) fun d q1 t =>
      let i := q1.insertQ v.ef d m
      State.walkNeighbours x v l j k r (changed || i.2) i.1 t

/-- A page of the buffer used by an expansion: it is now the one used most recently (R250). -/
def Search.touch (v : Search) (p : Nat) : Search :=
  match v.slotOf p with
  | some i => { v with slots := tset v.slots i (p, v.useClock), useClock := v.useClock + 1 }
  | none => v

/-- An expansion of node `n` begins on bench `b`: it is counted (Table 10.8) and its page is used. -/
def State.beginExpand (s : State) (b : Nat) (l : Lode) (n : Nat) : State :=
  (s.modSearch b fun y => y.touch (l.pageOf n)).modBench b fun x => { x with
    walker := { x.walker with expansions := x.walker.expansions + 1 } }

/-- The expansion of node `n` at distance `d` by query `j`, its page available. -/
def State.expand (s : State) (x : Site) (v : Search) (l : Lode) (j : Nat) (q0 : Query) (d : Int) (n : Nat) :
    State :=
  let q := { q0 with inFlight := q0.inFlight.filter fun e => e.2 != n, expansions := q0.expansions + 1 }
  (s.beginExpand x.bench l n).walkRecord x v l n fun m a t =>
    t.tombstone x l n fun tomb u =>
      let o := q.offer v tomb (recordAttr m a l) d n
      State.walkNeighbours x v l j (fun changed limit q1 w =>
        if limit then w.endQuery x v j q0 q1 2
        else
          let q2 := { q1 with stall := if changed then 0 else q1.stall + 1 }
          if 0 < v.patience ∧ q2.stall = v.patience then w.endQuery x v j q0 q2 3
          else w.nextOrConverge x v j q0 q2) (recordNeighbours m a l) o.2 o.1 u

/-- The next node of an exhaustive query (R253). -/
def State.exhaust1 (s : State) (x : Site) (v : Search) (l : Lode) (j : Nat) (q : Query) : State :=
  let n := q.nextNode
  let finish := fun (q1 : Query) (t : State) =>
    let q2 := { q1 with nextNode := n + 1, inFlight := [] }
    if l.nodes ≤ n + 1 then t.endQuery x v j q q2 4 else t.putQuery x.bench j q q2
  if v.maxVisits ≤ q.visits then s.endQuery x v j q q 2
  else s.tombstone x l n fun tomb t =>
    if tomb || !v.useFilter then
      t.walkDist x v l j n q fun d q1 u => finish (q1.offer v tomb (fun _ => 0) d n).1 u
    else
      let serve := fun (q1 : Query) (v1 : Search) (t1 : State) =>
        t1.walkDist x v1 l j n q1 fun d q2 u =>
          (u.modSearch x.bench fun y => y.touch (l.pageOf n)).walkRecord x v1 l n fun m a w => finish (q2.offer v1 false (recordAttr m a l) d n).1 w
      if l.base = 1 ∨ (q.inFlight ≠ [] ∧ v.pageReady l (l.pageOf n) = true) then serve q v t
      else if q.inFlight ≠ [] then t
      else
        match v.askPage l (l.pageOf n) with
        | none => t
        | some (v1, shared) =>
          if v1.pageReady l (l.pageOf n) then
            serve (q.pageAsked shared) v1 (t.modSearch x.bench fun y =>
              { v1 with queries := y.queries })
          else
            (t.modSearch x.bench fun y => { v1 with queries := y.queries }).putQuery x.bench j q
              { q.pageAsked shared with inFlight := [(0, n)] }

/-- The nearest candidate of query `j` taken, its page asked for; it is expanded at once when its page is
available. -/
def State.takeCandidate (s : State) (x : Site) (v : Search) (l : Lode) (j : Nat) (q : Query) : State :=
  match q.nearest with
  | none => s
  | some c =>
    let q1 := { q with q := q.q.map fun y => if y.node = c.node then { y with expanded := true } else y }
    if l.base = 1 then
      s.expand x { v with queries := listMod v.queries j fun _ => q } l j q1 c.dist c.node
    else
      match v.askPage l (l.pageOf c.node) with
      | none => s
      | some (v1, shared) =>
        let q2 := { q1.pageAsked shared with inFlight := q1.inFlight ++ [(c.dist, c.node)] }
        let t := (s.modSearch x.bench fun y => { v1 with queries := y.queries }).putQuery x.bench j q q2
        if v1.pageReady l (l.pageOf c.node) then t.expand x v1 l j q2 c.dist c.node else t

/-- True when the search of bench `b` goes on and its query `j` has made no expansion and passed no node since `q`. -/
def State.stillAt (t : State) (b j : Nat) (q : Query) : Bool :=
  match (t.bench b).walker.search with
  | none => false
  | some v => (v.queries[j]?).any fun y => !y.stopped && y.expansions == q.expansions && y.nextNode == q.nextNode

/-- What query `query` of the search `v` on bench `bench` does next (R243, R249, R253). -/
def State.walkOn (s : State) (bench query : Nat) (v : Search) (q : Query) : State :=
  let l := lodeOf v.header
  let x : Site := { bench := bench, pc := v.pc, walker := true }
  if v.exhaustive then s.exhaust1 x v l query q
  else
    match q.inFlight.find? fun e => v.pageReady l (l.pageOf e.2) with
    | some (d, n) => s.expand x v l query q d n
    | none => if q.inFlight.length < v.inflight then s.takeCandidate x v l query q else s

/-- WALKER_EXPANSION (R243, R249, R253): query `query` of the search on bench `bench` expands a candidate
in flight whose page has arrived, otherwise takes its nearest candidate while fewer than inflight are in
flight, asks for its page and expands it once that is available. -/
def execWalkerExpansion (bench query : Nat) (s : State) : Host.Outcome State Fault Refusal :=
  .next (match (s.bench bench).walker.search with
  | none => s
  | some v =>
    match v.queries[query]? with
    | none => s
    | some q =>
      if q.stopped = true ∨ s.benchAwake bench = false then s
      else
        let t := s.walkOn bench query v q
        s.after (s.walked t bench (t.stillAt bench query q)))

/-- WALKER_PAGE_READ_DONE (R249, R234, R250): the read of base-level page `page` arrives in the page
buffer and is checked once; every expansion that joined it may then go on. A page that cannot be read
ends the search. -/
def execWalkerPageReadDone (bench page : Nat) (readable : Bool) (s : State) :
    Host.Outcome State Fault Refusal :=
  .next (match (s.bench bench).walker.search with
  | none => s
  | some v =>
    let l := lodeOf v.header
    let x : Site := { bench := bench, pc := v.pc, walker := true }
    let lba := l.lba + 4 * page
    if v.reading.contains page = false ∨ s.benchAwake bench = false then s
    else if readable = false ∨ s.anyMarked l.nsid lba 4 = true ∨
        s.lbaCheck (s.benchFn bench) l.nsid lba 4 ≠ .success then
      s.after (s.mediaError.walkEnd x .unrecoveredRead 5)
    else
      let m := s.readBlocks l.nsid lba 4
      let s1 := (s.pagesOf l.nsid lba 4).foldl State.countRead s
      if pageOk m l page = false then s.after (s1.walkEnd x (.vendor 0xC4) 3)
      else if m.getLe 8 8 ≠ l.generation then s.after (s1.walkEnd x (.vendor 0xC3) 4)
      else
        s.after (s1.writeT0 bench (v.pageBuf + (v.slotOf page).getD 0 * 16384) 16384
          (fun t0 => t0.copyIn (v.pageBuf + (v.slotOf page).getD 0 * 16384) m 0 16384)
          fun t => t.modSearch bench fun y => { y with reading := y.reading.filter fun p => p != page }))

end Sys2Proof.Machine
end

