-- ==== Sys2Proof/Machine/Dispatch.lean ====
section
/-! DEFINITION. One arm per command: a direct call of its meaning. -/

namespace Sys2Proof.Machine

def exec (i : Instr) (s : State) : Host.Outcome State Fault Refusal :=
  match i with
  | .read c nsid slba blocks => Sys2Proof.Machine.execRead c nsid slba blocks s
  | .write c nsid slba blocks data => Sys2Proof.Machine.execWrite c nsid slba blocks data s
  | .writeZeroes c nsid slba blocks => Sys2Proof.Machine.execWriteZeroes c nsid slba blocks s
  | .deallocate c nsid ranges => Sys2Proof.Machine.execDeallocate c nsid ranges s
  | .flush c nsid => Sys2Proof.Machine.execFlush c nsid s
  | .verify c nsid slba blocks => Sys2Proof.Machine.execVerify c nsid slba blocks s
  | .writeAccept part => Sys2Proof.Machine.execWriteAccept part s
  | .iuReadBack part iu worst => Sys2Proof.Machine.execIuReadBack part iu worst s
  | .journalRecordDurable => Sys2Proof.Machine.execJournalRecordDurable s
  | .abort c sq cid => Sys2Proof.Machine.execAbort c sq cid s
  | .identify c cns nsid => Sys2Proof.Machine.execIdentify c cns nsid s
  | .getLogPage c lid offset len => Sys2Proof.Machine.execGetLogPage c lid offset len s
  | .getFeatures c fid select => Sys2Proof.Machine.execGetFeatures c fid select s
  | .mediaEarlyWarning c dw11 save => Sys2Proof.Machine.execMediaEarlyWarning c dw11 save s
  | .patrolPeriod c dw11 save => Sys2Proof.Machine.execPatrolPeriod c dw11 save s
  | .portMode c dw11 save => Sys2Proof.Machine.execPortMode c dw11 save s
  | .encryptNewNamespaces c dw11 save => Sys2Proof.Machine.execEncryptNewNamespaces c dw11 save s
  | .powerCap c dw11 save => Sys2Proof.Machine.execPowerCap c dw11 save s
  | .powerManagement c ps save => Sys2Proof.Machine.execPowerManagement c ps save s
  | .autonomousPowerStateTransition c setting table => Sys2Proof.Machine.execAutonomousPowerStateTransition c setting table s
  | .hostMemoryBuffer c enable bytes => Sys2Proof.Machine.execHostMemoryBuffer c enable bytes s
  | .powerStateIdleEntry fn => Sys2Proof.Machine.execPowerStateIdleEntry fn s
  | .formatNvm c nsid ses => Sys2Proof.Machine.execFormatNvm c nsid ses s
  | .sanitize c action => Sys2Proof.Machine.execSanitize c action s
  | .namespaceManagement c sel nsid blocks => Sys2Proof.Machine.execNamespaceManagement c sel nsid blocks s
  | .namespaceAttachment c sel nsid fns => Sys2Proof.Machine.execNamespaceAttachment c sel nsid fns s
  | .createIoQueue c isCq qid entries cq prio => Sys2Proof.Machine.execCreateIoQueue c isCq qid entries cq prio s
  | .asynchronousEventRequest c => Sys2Proof.Machine.execAsynchronousEventRequest c s
  | .firmwareImageDownload c offset data => Sys2Proof.Machine.execFirmwareImageDownload c offset data s
  | .firmwareCommit c action slot => Sys2Proof.Machine.execFirmwareCommit c action slot s
  | .loadProgram c index kind image => Sys2Proof.Machine.execLoadProgram c index kind image s
  | .unloadProgram c index => Sys2Proof.Machine.execUnloadProgram c index s
  | .programActivationManagement c index activate => Sys2Proof.Machine.execProgramActivationManagement c index activate s
  | .executeProgram c index params => Sys2Proof.Machine.execExecuteProgram c index params s
  | .executeScan c index params bufLen sgl => Sys2Proof.Machine.execExecuteScan c index params bufLen sgl s
  | .memoryRead c addr len => Sys2Proof.Machine.execMemoryRead c addr len s
  | .memoryWrite c addr data => Sys2Proof.Machine.execMemoryWrite c addr data s
  | .memoryCopy c addr nsid slba blocks toNvm => Sys2Proof.Machine.execMemoryCopy c addr nsid slba blocks toNvm s
  | .extentCreate c dw10 => Sys2Proof.Machine.execExtentCreate c dw10 s
  | .extentFree c dw10 dw11 => Sys2Proof.Machine.execExtentFree c dw10 dw11 s
  | .extentFreeEffect die slot => Sys2Proof.Machine.execExtentFreeEffect die slot s
  | .extentPin c dw10 dw11 dw12 => Sys2Proof.Machine.execExtentPin c dw10 dw11 dw12 s
  | .extentUnpin c dw10 dw11 => Sys2Proof.Machine.execExtentUnpin c dw10 dw11 s
  | .extentPlace c dw10 dw11 dw12 => Sys2Proof.Machine.execExtentPlace c dw10 dw11 dw12 s
  | .tensorSpaceConfigure c dw10 => Sys2Proof.Machine.execTensorSpaceConfigure c dw10 s
  | .quotaSet c dw10 dw11 => Sys2Proof.Machine.execQuotaSet c dw10 dw11 s
  | .hoistListAttach c dw10 dw11 image => Sys2Proof.Machine.execHoistListAttach c dw10 dw11 image s
  | .directProgram c dw10 dw11 data status => Sys2Proof.Machine.execDirectProgram c dw10 dw11 data status s
  | .directRead c dw10 dw11 dw12 => Sys2Proof.Machine.execDirectRead c dw10 dw11 dw12 s
  | .directErase c dw10 status => Sys2Proof.Machine.execDirectErase c dw10 status s
  | .directMediaReserve c dw10 => Sys2Proof.Machine.execDirectMediaReserve c dw10 s
  | .fabricConfigure c dw10 dw11 => Sys2Proof.Machine.execFabricConfigure c dw10 dw11 s
  | .peerWindowAccept c dw10 dw11 dw12 => Sys2Proof.Machine.execPeerWindowAccept c dw10 dw11 dw12 s
  | .peerWindowBind c dw10 dw11 dw12 dw13 dw14 dw15 => Sys2Proof.Machine.execPeerWindowBind c dw10 dw11 dw12 dw13 dw14 dw15 s
  | .peerWindowRelease c dw10 dw11 => Sys2Proof.Machine.execPeerWindowRelease c dw10 dw11 s
  | .peerCopy c dw10 dw11 dw12 dw13 dw14 dw15 => Sys2Proof.Machine.execPeerCopy c dw10 dw11 dw12 dw13 dw14 dw15 s
  | .checkpointReserve c dw10 => Sys2Proof.Machine.execCheckpointReserve c dw10 s
  | .checkpointConfigure c dw10 dw11 dw12 dw13 manifest => Sys2Proof.Machine.execCheckpointConfigure c dw10 dw11 dw12 dw13 manifest s
  | .checkpointCut c dw10 dw11 dw12 => Sys2Proof.Machine.execCheckpointCut c dw10 dw11 dw12 s
  | .checkpointWait c dw10 dw11 => Sys2Proof.Machine.execCheckpointWait c dw10 dw11 s
  | .checkpointRestore c dw10 dw11 dw12 => Sys2Proof.Machine.execCheckpointRestore c dw10 dw11 dw12 s
  | .takeover c dw10 => Sys2Proof.Machine.execTakeover c dw10 s
  | .interruptionReport c => Sys2Proof.Machine.execInterruptionReport c s
  | .provisionBegin c => Sys2Proof.Machine.execProvisionBegin c s
  | .certificateInstall c dw10 dw11 chain => Sys2Proof.Machine.execCertificateInstall c dw10 dw11 chain s
  | .lifeCycleNonce c => Sys2Proof.Machine.execLifeCycleNonce c s
  | .lifeCycleTransition c dw10 auth => Sys2Proof.Machine.execLifeCycleTransition c dw10 auth s
  | .programSigningConfigure c dw10 key => Sys2Proof.Machine.execProgramSigningConfigure c dw10 key s
  | .readNvmeMiDataStructure dtype => Sys2Proof.Machine.execReadNvmeMiDataStructure dtype s
  | .subsystemHealthStatusPoll => Sys2Proof.Machine.execSubsystemHealthStatusPoll s
  | .controllerHealthStatusPoll fn => Sys2Proof.Machine.execControllerHealthStatusPoll fn s
  | .configurationGet id => Sys2Proof.Machine.execConfigurationGet id s
  | .configurationSet id value => Sys2Proof.Machine.execConfigurationSet id value s
  | .vpdRead offset len => Sys2Proof.Machine.execVpdRead offset len s
  | .vpdWrite offset data => Sys2Proof.Machine.execVpdWrite offset data s
  | .getVersion port => Sys2Proof.Machine.execGetVersion port s
  | .getCertificate port slot offset len => Sys2Proof.Machine.execGetCertificate port slot offset len s
  | .challenge port slot nonce => Sys2Proof.Machine.execChallenge port slot nonce s
  | .getMeasurements port index nonce => Sys2Proof.Machine.execGetMeasurements port index nonce s
  | .keyExchange port encapKey ownerAuth => Sys2Proof.Machine.execKeyExchange port encapKey ownerAuth s
  | .heartbeat port session => Sys2Proof.Machine.execHeartbeat port session s
  | .programKeySet port session dw10 key => Sys2Proof.Machine.execProgramKeySet port session dw10 key s
  | .sqDoorbell fn sq tail => Sys2Proof.Machine.execSqDoorbell fn sq tail s
  | .controllerEnable fn cc => Sys2Proof.Machine.execControllerEnable fn cc s
  | .controllerReady fn => Sys2Proof.Machine.execControllerReady fn s
  | .controllerDisable fn => Sys2Proof.Machine.execControllerDisable fn s
  | .nvmSubsystemReset fn => Sys2Proof.Machine.execNvmSubsystemReset fn s
  | .functionLevelReset fn => Sys2Proof.Machine.execFunctionLevelReset fn s
  | .registerWrite fn offset wide value => Sys2Proof.Machine.execRegisterWrite fn offset wide value s
  | .windowAccess fn offset wide isWrite value => Sys2Proof.Machine.execWindowAccess fn offset wide isWrite value s
  | .kclkLowRead fn counter => Sys2Proof.Machine.execKclkLowRead fn counter s
  | .scrubPassStart fn value => Sys2Proof.Machine.execScrubPassStart fn value s
  | .scrubPassDone => Sys2Proof.Machine.execScrubPassDone s
  | .haulEngineErrorClear fn region value => Sys2Proof.Machine.execHaulEngineErrorClear fn region value s
  | .haulEngineReArm fn region value => Sys2Proof.Machine.execHaulEngineReArm fn region value s
  | .lineDescriptorWrite fn region line desc => Sys2Proof.Machine.execLineDescriptorWrite fn region line desc s
  | .extentSnapshotSelect fn die value => Sys2Proof.Machine.execExtentSnapshotSelect fn die value s
  | .portDisable fn port => Sys2Proof.Machine.execPortDisable fn port s
  | .portEnable fn port => Sys2Proof.Machine.execPortEnable fn port s
  | .eccTestArm fn value => Sys2Proof.Machine.execEccTestArm fn value s
  | .monitorConfigure fn monitor cfg0 cfg1 => Sys2Proof.Machine.execMonitorConfigure fn monitor cfg0 cfg1 s
  | .maxStepWrite fn region value => Sys2Proof.Machine.execMaxStepWrite fn region value s
  | .perstAssert port => Sys2Proof.Machine.execPerstAssert port s
  | .perstDeassert port speed width => Sys2Proof.Machine.execPerstDeassert port speed width s
  | .attnPress => Sys2Proof.Machine.execAttnPress s
  | .attentionBlinkExpire => Sys2Proof.Machine.execAttentionBlinkExpire s
  | .pwrdisAssert => Sys2Proof.Machine.execPwrdisAssert s
  | .pwrdisRelease => Sys2Proof.Machine.execPwrdisRelease s
  | .sidebandStuck input => Sys2Proof.Machine.execSidebandStuck input s
  | .mainSwitchClose => Sys2Proof.Machine.execMainSwitchClose s
  | .undervoltage standby => Sys2Proof.Machine.execUndervoltage standby s
  | .overvoltage standby => Sys2Proof.Machine.execOvervoltage standby s
  | .inputRecovered => Sys2Proof.Machine.execInputRecovered s
  | .powerLoss => Sys2Proof.Machine.execPowerLoss s
  | .watchdogExpiry => Sys2Proof.Machine.execWatchdogExpiry s
  | .bootChain => Sys2Proof.Machine.execBootChain s
  | .regionReset region kind memory bench addr => Sys2Proof.Machine.execRegionReset region kind memory bench addr s
  | .faceDieReset die kind memory detail addr => Sys2Proof.Machine.execFaceDieReset die kind memory detail addr s
  | .moduleReset kind memory => Sys2Proof.Machine.execModuleReset kind memory s
  | .coldReset cause => Sys2Proof.Machine.execColdReset cause s
  | .resetComplete failed duration => Sys2Proof.Machine.execResetComplete failed duration s
  | .mount sample => Sys2Proof.Machine.execMount sample s
  | .dramErasureModeEnter stack coreDie => Sys2Proof.Machine.execDramErasureModeEnter stack coreDie s
  | .secondDieErasureCriteria stack coreDie => Sys2Proof.Machine.execSecondDieErasureCriteria stack coreDie s
  | .scrubRead memory place addr pass triggered errors => Sys2Proof.Machine.execScrubRead memory place addr pass triggered errors s
  | .dieFabricError die => Sys2Proof.Machine.execDieFabricError die s
  | .sequencerStep bench => Sys2Proof.Machine.execSequencerStep bench s
  | .endComplete bench => Sys2Proof.Machine.execEndComplete bench s
  | .barrierRelease bench barrier => Sys2Proof.Machine.execBarrierRelease bench barrier s
  | .waitLimitExpire bench => Sys2Proof.Machine.execWaitLimitExpire bench s
  | .arrayLoad bench array => Sys2Proof.Machine.execArrayLoad bench array s
  | .loadLatch bench array wait => Sys2Proof.Machine.execLoadLatch bench array wait s
  | .arrayStream bench array residueOk => Sys2Proof.Machine.execArrayStream bench array residueOk s
  | .streamEnd bench array => Sys2Proof.Machine.execStreamEnd bench array s
  | .arrayDrain bench array => Sys2Proof.Machine.execArrayDrain bench array s
  | .drainEnd bench array => Sys2Proof.Machine.execDrainEnd bench array s
  | .gateFire bench => Sys2Proof.Machine.execGateFire bench s
  | .ld bench => Sys2Proof.Machine.execLd bench s
  | .st bench => Sys2Proof.Machine.execSt bench s
  | .add bench => Sys2Proof.Machine.execAdd bench s
  | .sub bench => Sys2Proof.Machine.execSub bench s
  | .mul bench => Sys2Proof.Machine.execMul bench s
  | .fma bench => Sys2Proof.Machine.execFma bench s
  | .max bench => Sys2Proof.Machine.execMax bench s
  | .min bench => Sys2Proof.Machine.execMin bench s
  | .cmplt bench => Sys2Proof.Machine.execCmplt bench s
  | .sel bench => Sys2Proof.Machine.execSel bench s
  | .div bench => Sys2Proof.Machine.execDiv bench s
  | .sqrt bench => Sys2Proof.Machine.execSqrt bench s
  | .rsqrt bench => Sys2Proof.Machine.execRsqrt bench s
  | .exp bench => Sys2Proof.Machine.execExp bench s
  | .cvt bench => Sys2Proof.Machine.execCvt bench s
  | .rsum bench => Sys2Proof.Machine.execRsum bench s
  | .rmax bench => Sys2Proof.Machine.execRmax bench s
  | .rmin bench => Sys2Proof.Machine.execRmin bench s
  | .quant bench => Sys2Proof.Machine.execQuant bench s
  | .encode bench => Sys2Proof.Machine.execEncode bench s
  | .routePost bench => Sys2Proof.Machine.execRoutePost bench s
  | .crSet bench => Sys2Proof.Machine.execCrSet bench s
  | .nop bench => Sys2Proof.Machine.execNop bench s
  | .remoteRouteDeliver bench => Sys2Proof.Machine.execRemoteRouteDeliver bench s
  | .walkerSearch bench => Sys2Proof.Machine.execWalkerSearch bench s
  | .walkerExpansion bench query => Sys2Proof.Machine.execWalkerExpansion bench query s
  | .walkerPageReadDone bench page readable => Sys2Proof.Machine.execWalkerPageReadDone bench page readable s
  | .burstGrant region => Sys2Proof.Machine.execBurstGrant region s
  | .requestComplete region line => Sys2Proof.Machine.execRequestComplete region line s
  | .mapEpochPin scan => Sys2Proof.Machine.execMapEpochPin scan s
  | .sievePage scan stack readable => Sys2Proof.Machine.execSievePage scan stack readable s
  | .scanComplete scan => Sys2Proof.Machine.execScanComplete scan s
  | .freePoolCriticalFloor => Sys2Proof.Machine.execFreePoolCriticalFloor s
  | .moveStart die => Sys2Proof.Machine.execMoveStart die s
  | .spaceTileLanded die slot readable => Sys2Proof.Machine.execSpaceTileLanded die slot readable s
  | .hoistEngineReArm die => Sys2Proof.Machine.execHoistEngineReArm die s
  | .firstTouchCopyDone die slot tile => Sys2Proof.Machine.execFirstTouchCopyDone die slot tile s
  | .flashReadComplete ppa step correctedBits => Sys2Proof.Machine.execFlashReadComplete ppa step correctedBits s
  | .readCountRefresh block => Sys2Proof.Machine.execReadCountRefresh block s
  | .flashEraseComplete block => Sys2Proof.Machine.execFlashEraseComplete block s
  | .fold block => Sys2Proof.Machine.execFold block s
  | .garbageCollection => Sys2Proof.Machine.execGarbageCollection s
  | .gcRelocate worst => Sys2Proof.Machine.execGcRelocate worst s
  | .writeThrottle => Sys2Proof.Machine.execWriteThrottle s
  | .patrolRead ppa step correctedBits => Sys2Proof.Machine.execPatrolRead ppa step correctedBits s
  | .dieRetire stack die => Sys2Proof.Machine.execDieRetire stack die s
  | .stackRetire stack => Sys2Proof.Machine.execStackRetire stack s
  | .rebuildComplete stack => Sys2Proof.Machine.execRebuildComplete stack s
  | .readOnlyEndOfLife => Sys2Proof.Machine.execReadOnlyEndOfLife s
  | .portTrain port present failed farMask => Sys2Proof.Machine.execPortTrain port present failed farMask s
  | .exchange port farIdent farPort farEpoch => Sys2Proof.Machine.execExchange port farIdent farPort farEpoch s
  | .retrain port far => Sys2Proof.Machine.execRetrain port far s
  | .flitReceive port control good flit => Sys2Proof.Machine.execFlitReceive port control good flit s
  | .replayTimeout port => Sys2Proof.Machine.execReplayTimeout port s
  | .data src seq addr payload kind => Sys2Proof.Machine.execData src seq addr payload kind s
  | .ack src cum imageLost denied => Sys2Proof.Machine.execAck src cum imageLost denied s
  | .event base originator kind subject => Sys2Proof.Machine.execEvent base originator kind subject s
  | .state port farEpoch down assumed => Sys2Proof.Machine.execState port farEpoch down assumed s
  | .resync src next => Sys2Proof.Machine.execResync src next s
  | .retransmitTimeout dst => Sys2Proof.Machine.execRetransmitTimeout dst s
  | .alternatePortSwitch port => Sys2Proof.Machine.execAlternatePortSwitch port s
  | .portDownPropose port => Sys2Proof.Machine.execPortDownPropose port s
  | .portUpPropose port => Sys2Proof.Machine.execPortUpPropose port s
  | .epochEnter => Sys2Proof.Machine.execEpochEnter s
  | .routeTimeout coord => Sys2Proof.Machine.execRouteTimeout coord s
  | .cutDue => Sys2Proof.Machine.execCutDue s
  | .cutProtect => Sys2Proof.Machine.execCutProtect s
  | .flashCheckpointCommit => Sys2Proof.Machine.execFlashCheckpointCommit s
  | .takeoverCopyDone committed previous manifests frames => Sys2Proof.Machine.execTakeoverCopyDone committed previous manifests frames s
  | .managementPeriod t => Sys2Proof.Machine.execManagementPeriod t s
  | .uptimeWrite => Sys2Proof.Machine.execUptimeWrite s
  | .fastLimiterEngage => Sys2Proof.Machine.execFastLimiterEngage s
  | .thermalShutdown sensor => Sys2Proof.Machine.execThermalShutdown sensor s
  | .thermalShutdownExit => Sys2Proof.Machine.execThermalShutdownExit s
  | .regionSleepEnter region => Sys2Proof.Machine.execRegionSleepEnter region s
  | .regionWake region => Sys2Proof.Machine.execRegionWake region s
  | .wakeComplete region => Sys2Proof.Machine.execWakeComplete region s
  | .assayWindowClose monitor => Sys2Proof.Machine.execAssayWindowClose monitor s
  | .attnRelease => Sys2Proof.Machine.execAttnRelease s
  | .seamLinkRetrain stack => Sys2Proof.Machine.execSeamLinkRetrain stack s
  | .stripeParityProgrammed stripe => Sys2Proof.Machine.execStripeParityProgrammed stripe s
  | .flashStreamPageReadBack worst => Sys2Proof.Machine.execFlashStreamPageReadBack worst s

end Sys2Proof.Machine
end

