-- ==== Sys2Proof/Machine/Ticks.lean ====
section
/-! DEFINITION. What one KCLK tick does (R19, R415, R430, R431). -/

namespace Sys2Proof.Machine

/-- The value of a sampled source of Table 18.2. -/
def State.sample (s : State) (src k : Nat) : Option Int :=
  match src with
  | 0x01 => if k = 0 then some (s.power.inputDw : Int) else none
  | 0x02 => s.power.temps[k]?
  | 0x03 => if k < 8 then some ((s.region k).step : Int) else none
  | 0x04 => if k < 4 then some ((s.power.traffic.getD k 0 : Nat) : Int) else none
  | 0x05 => if k < 32 then some ((s.power.traffic.getD (k + 4) 0 : Nat) : Int) else none
  | _ => none

/-- Every monitor of a sampled source takes the tick's value, stamped with the tick. -/
def State.sampleAll (s : State) : State :=
  s.modMgmt fun m => { m with
    monitors := m.monitors.map fun e =>
      let r := e.2.roll e.1 s.now
      match s.sample r.source r.inst with
      | some v => (e.1, if r.capturing then r.take v else r)
      | none => (e.1, r) }

/-- A region's entry into sleep one tick on: its PLL stops at the second tick (R419). -/
def Region.ticked (g : Region) : Region :=
  if g.entering = 1 then g.asleep else { g with entering := g.entering - 1 }

/-- One KCLK tick: the sampled sources give their values, the watchdog counts the management periods since its
last kick (R429), and the three counters advance. With the
always-on domain unpowered nothing counts. -/
def State.tick (s : State) : State :=
  if s.power.standby || s.power.on then
    let t := s.sampleAll.modMgmt fun m => { m with
      kickAge := if (s.now + 1) % 1000 = 0 then capNat 0xFFFF (m.kickAge + 1) else m.kickAge }
    let u : State := { t with regions := t.regions.map fun e => (e.1, e.2.ticked) }
    u.modClk fun c => { c with
      face0 := if s.power.on then c.face0 + 1 else c.face0
      face1 := if s.power.on then c.face1 + 1 else c.face1
      hoist := c.hoist + 1 }
  else s

end Sys2Proof.Machine
end

