-- ==== Sys2Proof/Safety.lean ====
section
/-! DEFINITION. The notions that the statements are written with: a command that is accepted, what it
posts, and what it leaves as it was. -/

namespace Sys2Proof.Machine

/-- The command answers exactly the state `t`. -/
abbrev Runs (i : Instr) (s t : State) : Prop := exec i s = .next t

/-- A command from `c` of class `k` is fetched and permitted: its controller is ready (R299), its queue exists (R295) and
the life-cycle state permits the class (R408). -/
abbrev Accepts (c : Src) (k : CmdClass) (s : State) : Prop :=
  s.takes c = true ∧ permits k s.lifeCycle = true

/-- A command that only a PF may issue is accepted (R310, R412). -/
abbrev AcceptsPf (c : Src) (k : CmdClass) (s : State) : Prop :=
  Accepts c k s ∧ isPf c.fn = true

/-- Exactly one completion entry has been posted: `e`. -/
abbrev Posts (s t : State) (e : Completion) : Prop :=
  t.host.completions = s.host.completions ++ [e]

/-- No completion entry has been posted. -/
abbrev PostsNone (s t : State) : Prop := t.host.completions = s.host.completions

/-- Everything outside the host port, the management core and the regions is as it was. -/
structure CoreSame (s t : State) : Prop where
  pending : t.pending = s.pending
  mfg : t.mfg = s.mfg
  clk : t.clk = s.clk
  benches : t.benches = s.benches
  ts : t.ts = s.ts
  flash : t.flash = s.flash
  scans : t.scans = s.scans
  fabric : t.fabric = s.fabric
  ckpt : t.ckpt = s.ckpt
  sec : t.sec = s.sec
  power : t.power = s.power
  resets : t.resets = s.resets

/-- The management core is as it was but for what its assay monitors have counted. -/
abbrev MgmtSame (s t : State) : Prop := t.mgmt = { s.mgmt with monitors := t.mgmt.monitors }

/-- What a host command of `c` that acts on nothing leaves as it was: the core, the management core but its monitors,
namespaces, programs and the other controllers; and the regions, unless the command has woken its controller from a
non-operational power state (R317). -/
structure HostFrame (c : Src) (s t : State) : Prop where
  core : CoreSame s t
  mgmt : MgmtSame s t
  regions : (s.ctl c.fn).ps < 3 → t.regions = s.regions
  namespaces : t.host.namespaces = s.host.namespaces
  programs : t.host.programs = s.host.programs
  others : ∀ f, f ≠ c.fn → t.ctl f = s.ctl f

/-- Everything but the benches is as it was. -/
structure BenchOnly (s t : State) : Prop where
  pending : t.pending = s.pending
  mfg : t.mfg = s.mfg
  clk : t.clk = s.clk
  host : t.host = s.host
  ts : t.ts = s.ts
  flash : t.flash = s.flash
  scans : t.scans = s.scans
  fabric : t.fabric = s.fabric
  ckpt : t.ckpt = s.ckpt
  sec : t.sec = s.sec
  mgmt : t.mgmt = s.mgmt
  power : t.power = s.power
  resets : t.resets = s.resets

/-- The issuer of a host command and the class in which Table 16.7 permits it. -/
def hostClass : Instr → Option (Src × CmdClass)
  | .read c _ _ _ => some (c, .operational)
  | .write c _ _ _ _ => some (c, .operational)
  | .writeZeroes c _ _ _ => some (c, .operational)
  | .deallocate c _ _ => some (c, .operational)
  | .flush c _ => some (c, .operational)
  | .verify c _ _ _ => some (c, .operational)
  | .writeAccept _ => none
  | .iuReadBack _ _ _ => none
  | .journalRecordDurable => none
  | .abort c _ _ => some (c, .operational)
  | .identify c _ _ => some (c, .info)
  | .getLogPage c _ _ _ => some (c, .info)
  | .getFeatures c _ _ => some (c, .operational)
  | .mediaEarlyWarning c _ _ => some (c, .operational)
  | .patrolPeriod c _ _ => some (c, .operational)
  | .portMode c _ _ => some (c, .operational)
  | .encryptNewNamespaces c _ _ => some (c, .operational)
  | .powerCap c _ _ => some (c, .operational)
  | .powerManagement c _ _ => some (c, .operational)
  | .autonomousPowerStateTransition c _ _ => some (c, .operational)
  | .hostMemoryBuffer c _ _ => some (c, .operational)
  | .powerStateIdleEntry _ => none
  | .formatNvm c _ _ => some (c, .operational)
  | .sanitize c _ => some (c, .operational)
  | .namespaceManagement c _ _ _ => some (c, .operational)
  | .namespaceAttachment c _ _ _ => some (c, .operational)
  | .createIoQueue c _ _ _ _ _ => some (c, .operational)
  | .asynchronousEventRequest c => some (c, .operational)
  | .firmwareImageDownload c _ _ => some (c, .operational)
  | .firmwareCommit c _ _ => some (c, .operational)
  | .loadProgram c _ _ _ => some (c, .operational)
  | .unloadProgram c _ => some (c, .operational)
  | .programActivationManagement c _ _ => some (c, .operational)
  | .executeProgram c _ _ => some (c, .operational)
  | .executeScan c _ _ _ _ => some (c, .operational)
  | .memoryRead c _ _ => some (c, .operational)
  | .memoryWrite c _ _ => some (c, .operational)
  | .memoryCopy c _ _ _ _ _ => some (c, .operational)
  | .extentCreate c _ => some (c, .operational)
  | .extentFree c _ _ => some (c, .operational)
  | .extentFreeEffect _ _ => none
  | .extentPin c _ _ _ => some (c, .operational)
  | .extentUnpin c _ _ => some (c, .operational)
  | .extentPlace c _ _ _ => some (c, .operational)
  | .tensorSpaceConfigure c _ => some (c, .operational)
  | .quotaSet c _ _ => some (c, .operational)
  | .hoistListAttach c _ _ _ => some (c, .operational)
  | .directProgram c _ _ _ _ => some (c, .direct)
  | .directRead c _ _ _ => some (c, .direct)
  | .directErase c _ _ => some (c, .direct)
  | .directMediaReserve c _ => some (c, .direct)
  | .fabricConfigure c _ _ => some (c, .operational)
  | .peerWindowAccept c _ _ _ => some (c, .operational)
  | .peerWindowBind c _ _ _ _ _ _ => some (c, .operational)
  | .peerWindowRelease c _ _ => some (c, .operational)
  | .peerCopy c _ _ _ _ _ _ => some (c, .operational)
  | .checkpointReserve c _ => some (c, .operational)
  | .checkpointConfigure c _ _ _ _ _ => some (c, .operational)
  | .checkpointCut c _ _ _ => some (c, .operational)
  | .checkpointWait c _ _ => some (c, .operational)
  | .checkpointRestore c _ _ _ => some (c, .operational)
  | .takeover c _ => some (c, .operational)
  | .interruptionReport c => some (c, .operational)
  | .provisionBegin c => some (c, .provision)
  | .certificateInstall c dw10 _ _ => some (c, if fld dw10 0 0 = 0 then .slot0 else .slot1)
  | .lifeCycleNonce c => some (c, .lifeCycle)
  | .lifeCycleTransition c _ _ => some (c, .lifeCycle)
  | .programSigningConfigure c _ _ => some (c, .signing)
  | .readNvmeMiDataStructure _ => none
  | .subsystemHealthStatusPoll => none
  | .controllerHealthStatusPoll _ => none
  | .configurationGet _ => none
  | .configurationSet _ _ => none
  | .vpdRead _ _ => none
  | .vpdWrite _ _ => none
  | .getVersion _ => none
  | .getCertificate _ _ _ _ => none
  | .challenge _ _ _ => none
  | .getMeasurements _ _ _ => none
  | .keyExchange _ _ _ => none
  | .heartbeat _ _ => none
  | .programKeySet _ _ _ _ => none
  | .sqDoorbell _ _ _ => none
  | .controllerEnable _ _ => none
  | .controllerReady _ => none
  | .controllerDisable _ => none
  | .nvmSubsystemReset _ => none
  | .functionLevelReset _ => none
  | .registerWrite _ _ _ _ => none
  | .windowAccess _ _ _ _ _ => none
  | .kclkLowRead _ _ => none
  | .scrubPassStart _ _ => none
  | .scrubPassDone => none
  | .haulEngineErrorClear _ _ _ => none
  | .haulEngineReArm _ _ _ => none
  | .lineDescriptorWrite _ _ _ _ => none
  | .extentSnapshotSelect _ _ _ => none
  | .portDisable _ _ => none
  | .portEnable _ _ => none
  | .eccTestArm _ _ => none
  | .monitorConfigure _ _ _ _ => none
  | .maxStepWrite _ _ _ => none
  | .perstAssert _ => none
  | .perstDeassert _ _ _ => none
  | .attnPress => none
  | .attentionBlinkExpire => none
  | .pwrdisAssert => none
  | .pwrdisRelease => none
  | .sidebandStuck _ => none
  | .mainSwitchClose => none
  | .undervoltage _ => none
  | .overvoltage _ => none
  | .inputRecovered => none
  | .powerLoss => none
  | .watchdogExpiry => none
  | .bootChain => none
  | .regionReset _ _ _ _ _ => none
  | .faceDieReset _ _ _ _ _ => none
  | .moduleReset _ _ => none
  | .coldReset _ => none
  | .resetComplete _ _ => none
  | .mount _ => none
  | .dramErasureModeEnter _ _ => none
  | .secondDieErasureCriteria _ _ => none
  | .scrubRead _ _ _ _ _ _ => none
  | .dieFabricError _ => none
  | .sequencerStep _ => none
  | .endComplete _ => none
  | .barrierRelease _ _ => none
  | .waitLimitExpire _ => none
  | .arrayLoad _ _ => none
  | .loadLatch _ _ _ => none
  | .arrayStream _ _ _ => none
  | .streamEnd _ _ => none
  | .arrayDrain _ _ => none
  | .drainEnd _ _ => none
  | .gateFire _ => none
  | .ld _ => none
  | .st _ => none
  | .add _ => none
  | .sub _ => none
  | .mul _ => none
  | .fma _ => none
  | .max _ => none
  | .min _ => none
  | .cmplt _ => none
  | .sel _ => none
  | .div _ => none
  | .sqrt _ => none
  | .rsqrt _ => none
  | .exp _ => none
  | .cvt _ => none
  | .rsum _ => none
  | .rmax _ => none
  | .rmin _ => none
  | .quant _ => none
  | .encode _ => none
  | .routePost _ => none
  | .crSet _ => none
  | .nop _ => none
  | .remoteRouteDeliver _ => none
  | .walkerSearch _ => none
  | .walkerExpansion _ _ => none
  | .walkerPageReadDone _ _ _ => none
  | .burstGrant _ => none
  | .requestComplete _ _ => none
  | .mapEpochPin _ => none
  | .sievePage _ _ _ => none
  | .scanComplete _ => none
  | .freePoolCriticalFloor => none
  | .moveStart _ => none
  | .spaceTileLanded _ _ _ => none
  | .hoistEngineReArm _ => none
  | .firstTouchCopyDone _ _ _ => none
  | .flashReadComplete _ _ _ => none
  | .readCountRefresh _ => none
  | .flashEraseComplete _ => none
  | .fold _ => none
  | .garbageCollection => none
  | .gcRelocate _ => none
  | .writeThrottle => none
  | .patrolRead _ _ _ => none
  | .dieRetire _ _ => none
  | .stackRetire _ => none
  | .rebuildComplete _ => none
  | .readOnlyEndOfLife => none
  | .portTrain _ _ _ _ => none
  | .exchange _ _ _ _ => none
  | .retrain _ _ => none
  | .flitReceive _ _ _ _ => none
  | .replayTimeout _ => none
  | .data _ _ _ _ _ => none
  | .ack _ _ _ _ => none
  | .event _ _ _ _ => none
  | .state _ _ _ _ => none
  | .resync _ _ => none
  | .retransmitTimeout _ => none
  | .alternatePortSwitch _ => none
  | .portDownPropose _ => none
  | .portUpPropose _ => none
  | .epochEnter => none
  | .routeTimeout _ => none
  | .cutDue => none
  | .cutProtect => none
  | .flashCheckpointCommit => none
  | .takeoverCopyDone _ _ _ _ => none
  | .managementPeriod _ => none
  | .uptimeWrite => none
  | .fastLimiterEngage => none
  | .thermalShutdown _ => none
  | .thermalShutdownExit => none
  | .regionSleepEnter _ => none
  | .regionWake _ => none
  | .wakeComplete _ => none
  | .assayWindowClose _ => none
  | .attnRelease => none
  | .seamLinkRetrain _ => none
  | .stripeParityProgrammed _ => none
  | .flashStreamPageReadBack _ => none

end Sys2Proof.Machine
end

