-- ==== Sys2Proof/Certificates/Slice0/Obligations.lean ====
section
/-! DEFINITION. The statements about the module, from the numbered rules of spec/. -/

open Sys2Proof Sys2Proof.Machine

/-- For every command i and state s, the step of s with i at the front of its queue is exec i on s with the
queue's rest. (Rests on parts of 00_scope.md.) -/
def Obligations.StepRunsFrontCommand : Prop :=
  ∀ (i : Instr) (rest : List Instr) (s : State), s.pending = i :: rest →
    step s = exec i { s with pending := rest }

/-- The model's own choice (notes/assumptions/1.md): with no command waiting, a step on a powered module lets one
KCLK tick pass. The three KCLK counters each rise by one, wrapping at 64 bits, and the host port, the benches,
the tensor space, the flash, the fabric, the checkpoints and the security engine stay as they were. On standby
only the hoist counter rises. (Rests on parts of R19, R415, notes/assumptions/1.md.) -/
def Obligations.EmptyQueueTicks : Prop :=
  (∀ s : State, s.pending = [] → s.power.on = true →
    ∃ t, step s = .next t ∧ t.clk.face0 = s.clk.face0 + 1 ∧ t.clk.face1 = s.clk.face1 + 1 ∧
      t.clk.hoist = s.clk.hoist + 1 ∧ t.clk.latch0 = s.clk.latch0 ∧ t.clk.latch1 = s.clk.latch1 ∧
      t.clk.latchH = s.clk.latchH ∧ t.pending = [] ∧ t.mfg = s.mfg ∧ t.host = s.host ∧
      t.benches = s.benches ∧ t.ts = s.ts ∧ t.flash = s.flash ∧ t.scans = s.scans ∧ t.fabric = s.fabric ∧
      t.ckpt = s.ckpt ∧ t.sec = s.sec ∧ t.power = s.power ∧ t.resets = s.resets) ∧
  (∀ s : State, s.pending = [] → s.power.on = false → s.power.standby = true →
    ∃ t, step s = .next t ∧ t.clk.face0 = s.clk.face0 ∧ t.clk.face1 = s.clk.face1 ∧
      t.clk.hoist = s.clk.hoist + 1)

/-- For every host command of Instr (hostClass): while its controller's CSTS.RDY is 0, and where its I/O
submission queue has not been created, the command is not fetched, and the state is unchanged; where it can be
fetched and the life-cycle state does not permit the class of the command (Table 16.7; the classes of
Identify, Get Log Page and the life-cycle commands in BLANK are the model's deduction,
notes/assumptions/10.md), it completes with Command Sequence Error and has no other effect. (Rests on parts of
R299, R294, R408, R412, Table 16.7, 12_host_interface.md, notes/assumptions/10.md.) -/
def Obligations.HostCommandsAreGated : Prop :=
  (∀ (i : Instr) (c : Src) (k : CmdClass) (s : State), hostClass i = some (c, k) →
    ((s.ctl c.fn).rdy = false ∨ (c.sq ≠ 0 ∧ thas (s.ctl c.fn).sqs c.sq = false)) → exec i s = .next s) ∧
  (∀ (i : Instr) (c : Src) (k : CmdClass) (s : State), hostClass i = some (c, k) →
    s.takes c = true → permits k s.lifeCycle = false →
    ∃ t, exec i s = .next t ∧ Posts s t { src := c, status := .commandSequenceError } ∧ HostFrame c s t)

/-- No Asynchronous Event Request waits, so an event raised posts no completion. -/
abbrev Pre.noAers (s : State) : Prop := ∀ fn, (s.ctl fn).aers = []

/-- Tensor space and every bench store are in canonical form. -/
abbrev MemoriesCanonical (s : State) : Prop := Mem.wf s.ts.mem = true ∧ ∀ b, Mem.wf (s.bench b).t0 = true

/-- The life-cycle record holds at most 31 entries, each PROVISIONED, DEPLOYED or DEBUG (R393, R409). -/
abbrev LifeCycleSound (x : Security) : Prop := x.lcRecord.length ≤ 31 ∧ ∀ c ∈ x.lcRecord, 1 ≤ c ∧ c ≤ 3

/-- At State.reset a cold reset runs with cause 1, no command waits, no controller is ready, every region is
asleep, no bench is bound, every slot of both face dies is FREE, every byte of tensor space and of every bench
store reads 0x00, the flash is not mounted, no port is ACTIVE, the Recovery Journal is empty, exactly as many
arrays are fused off as the grade leaves out, and the invariants that every step keeps hold: the memories are
in canonical form and the life-cycle record is sound. (Register values that the spec does not give rest on
notes/assumptions/2.md and are not stated here.) (Rests on parts of R20, R30, R391, R459,
15_errors_and_ordering.md, notes/assumptions/2.md.) -/
def Obligations.ResetState : Prop :=
  State.reset.pending = [] ∧ (State.reset.resets.map (·.scope)) = [4] ∧
  (∀ fn, (State.reset.ctl fn).rdy = false) ∧ (∀ r, (State.reset.region r).st = .sleep) ∧
  (∀ b, (State.reset.bench b).bind = none ∧ (State.reset.bench b).seq.st = .unbound) ∧
  (∀ d j, (State.reset.extent d j).st = 0) ∧ (∀ a, State.reset.ts.mem.get a = 0) ∧
  (∀ b a, (State.reset.bench b).t0.get a = 0) ∧ State.reset.flash.mounted = false ∧
  (∀ p, (State.reset.port p).st = 0) ∧ State.reset.mgmt.journal = [] ∧ State.reset.mgmt.coldCause = 1 ∧
  State.reset.mfg.sound = true ∧
  MemoriesCanonical State.reset ∧ LifeCycleSound State.reset.sec

/-- A Read or Verify is served: accepted, its blocks exist, and none is marked unreadable. -/
abbrev Pre.readable (c : Src) (nsid slba blocks : Nat) (s : State) : Prop :=
  Accepts c .operational s ∧ s.lbaCheck c.fn nsid slba blocks = .success ∧ s.anyMarked nsid slba blocks = false

/-- What a read leaves: everything but the read counts of the blocks and stacks that served it. -/
structure ReadFrame (s t : State) : Prop where
  map : t.flash.map = s.flash.map
  media : t.flash.media = s.flash.media
  parts : t.flash.parts = s.flash.parts
  journal : t.flash.journal = s.flash.journal
  ts : t.ts = s.ts
  benches : t.benches = s.benches
  fabric : t.fabric = s.fabric
  ckpt : t.ckpt = s.ckpt
  sec : t.sec = s.sec
  scans : t.scans = s.scans
  pending : t.pending = s.pending
  mgmt : MgmtSame s t
  ops : t.host.ops = s.host.ops
  namespaces : t.host.namespaces = s.host.namespaces

/-- Read (of at most 2 MiB) and Verify of logical blocks that exist and of which none is marked unreadable
complete with success; Read returns the bytes of those blocks. Where a block is marked, both complete with
Unrecovered Read Error and Media and Data Integrity Errors rises by one. Neither changes the map, the media,
the write buffer, the journal, tensor space or any bench. A namespace or a range that does not exist ends both
with the status that names it, and nothing else. (Rests on parts of R303, R278, R297, R298.) -/
def Obligations.ReadsComplete : Prop :=
  (∀ c nsid slba blocks s, Pre.readable c nsid slba blocks s → blocks ≤ 512 →
    ∃ t, exec (.read c nsid slba blocks) s = .next t ∧
      Posts s t { src := c, status := .success
                  reply := .data { len := 4096 * blocks, bytes := s.readBlocks nsid slba blocks } } ∧
      ReadFrame s t) ∧
  (∀ c nsid slba blocks s, Pre.readable c nsid slba blocks s →
    ∃ t, exec (.verify c nsid slba blocks) s = .next t ∧ Posts s t { src := c, status := .success } ∧
      ReadFrame s t) ∧
  (∀ c nsid slba blocks s, Accepts c .operational s → s.lbaCheck c.fn nsid slba blocks = .success →
    s.anyMarked nsid slba blocks = true → blocks ≤ 512 →
    ∃ t, exec (.read c nsid slba blocks) s = .next t ∧ Posts s t { src := c, status := .unrecoveredRead } ∧
      t.flash.mediaErrors = s.flash.mediaErrors + 1 ∧ ReadFrame s t) ∧
  (∀ c nsid slba blocks s, Accepts c .operational s → s.lbaCheck c.fn nsid slba blocks = .success →
    s.anyMarked nsid slba blocks = true →
    ∃ t, exec (.verify c nsid slba blocks) s = .next t ∧ Posts s t { src := c, status := .unrecoveredRead } ∧
      t.flash.mediaErrors = s.flash.mediaErrors + 1 ∧ ReadFrame s t) ∧
  (∀ c nsid slba blocks s, Accepts c .operational s → s.lbaCheck c.fn nsid slba blocks ≠ .success →
    (∃ t, exec (.read c nsid slba blocks) s = .next t ∧ HostFrame c s t ∧
      Posts s t { src := c, status := s.lbaCheck c.fn nsid slba blocks }) ∧
    (∃ t, exec (.verify c nsid slba blocks) s = .next t ∧ HostFrame c s t ∧
      Posts s t { src := c, status := s.lbaCheck c.fn nsid slba blocks })) ∧
  (∀ (fn nsid slba blocks : Nat) (s : State), s.lbaCheck fn nsid slba blocks = .success ↔
    s.nsUsable fn nsid = true ∧ slba + blocks ≤ (s.ns nsid).blocks)

/-- With every buffered part and every page in canonical form, byte off of the i-th logical block of a read is the
byte of the newest accepted write part that covers the block, where the write buffer holds one, and otherwise
the byte of the page that the map names for the block's IU; an unmapped IU reads 0x00. (Rests on parts of
R303, R40, R270.) -/
def Obligations.ReadReturnsNewestOrMapped : Prop :=
  ∀ (s : State) (nsid slba blocks i off : Nat), i < blocks → off < 4096 →
    (∀ p ∈ s.flash.parts, p.data.wf = true) → (∀ e ∈ s.flash.media, e.2.wf = true) →
    (s.readBlocks nsid slba blocks).get (4096 * i + off) =
      match s.newestPart nsid (slba + i) with
      | some p => p.data.get ((slba + i - p.slba) * 4096 + off)
      | none =>
        match tget 0 s.flash.map (iuKey nsid ((slba + i) / 4)) with
        | 0 => 0
        | p + 1 => Mem.get (tget [] s.flash.media p) ((slba + i) % 4 * 4096 + off)

/-- A write-like command is taken: accepted, its blocks exist, and the module is not at read-only end of life. -/
abbrev Pre.writable (c : Src) (nsid slba blocks : Nat) (s : State) : Prop :=
  Accepts c .operational s ∧ s.lbaCheck c.fn nsid slba blocks = .success ∧ s.flash.readOnly = false

/-- The write buffer has taken `ps`, the parts of a new outstanding command of `c`, and nothing else has changed in the
flash; nothing has completed. -/
structure Buffered (c : Src) (ps : List Part) (s t : State) : Prop where
  parts : t.flash.parts = s.flash.parts ++ (ps.zipIdx.map fun e => { e.1 with
    id := s.flash.nextPart + e.2, op := s.host.nextOp
    die := b2n (Config.bufferDie (s.flash.nextPart + e.2)) })
  nextPart : t.flash.nextPart = s.flash.nextPart + ps.length
  op : t.host.ops = s.host.ops ++ [{ id := s.host.nextOp, src := c, since := s.now
                                     kind := .write ((List.range ps.length).map fun i => s.flash.nextPart + i) .success }]
  none : PostsNone s t
  map : t.flash.map = s.flash.map
  media : t.flash.media = s.flash.media
  journal : t.flash.journal = s.flash.journal
  ts : t.ts = s.ts
  benches : t.benches = s.benches
  pending : t.pending = s.pending

/-- Write (of 1 to 512 blocks), Write Zeroes and Deallocate of blocks that exist are taken into the write buffer
as parts not yet accepted, and post no completion yet: a Write of up to 32 blocks is one part wherever it
starts; a longer one is cut into parts that cover its blocks and none of which crosses a multiple of 32
blocks; Write Zeroes, and each non-empty range of a Deallocate, is one part that unmaps the IUs that it covers
wholly and programs those that it covers in part. The map, the media and the journal do not change yet. A
Deallocate of no blocks completes at once. At read-only end of life each completes with Namespace is Write
Protected and changes nothing. (Rests on parts of R262, R264, R301, R469, R286.) -/
def Obligations.WritesEnterBuffer : Prop :=
  (∀ c nsid slba blocks data s, Pre.writable c nsid slba blocks s → 0 < blocks → blocks ≤ 512 →
    ∃ t, exec (.write c nsid slba blocks data) s = .next t ∧
      Buffered c ((writePieces slba blocks).map fun e => dataPart c nsid slba data e.1 e.2) s t) ∧
  (∀ slba blocks, 0 < blocks → blocks ≤ 32 → writePieces slba blocks = [(slba, blocks)]) ∧
  (∀ slba blocks e, 32 < blocks → e ∈ writePieces slba blocks →
    0 < e.2 ∧ e.1 / 32 = (e.1 + e.2 - 1) / 32 ∧ slba ≤ e.1 ∧ e.1 + e.2 ≤ slba + blocks) ∧
  (∀ slba blocks a, slba ≤ a → a < slba + blocks → ∃ e ∈ writePieces slba blocks, e.1 ≤ a ∧ a < e.1 + e.2) ∧
  (∀ a n iu, 0 < n → ((wholeIus a n).1 ≤ iu ∧ iu < (wholeIus a n).1 + (wholeIus a n).2 ↔
    a ≤ 4 * iu ∧ 4 * iu + 4 ≤ a + n)) ∧
  (∀ a n iu, 0 < n → (iu ∈ partialIus a n ↔
    (a < 4 * iu + 4 ∧ 4 * iu < a + n) ∧ ¬(a ≤ 4 * iu ∧ 4 * iu + 4 ≤ a + n))) ∧
  (∀ c nsid slba blocks s, Pre.writable c nsid slba blocks s →
    ∃ t, exec (.writeZeroes c nsid slba blocks) s = .next t ∧ Buffered c [zeroPart c nsid slba blocks] s t) ∧
  (∀ c nsid ranges s, Accepts c .operational s → s.nsUsable c.fn nsid = true → s.flash.readOnly = false →
    (∀ r ∈ ranges, r.1 + r.2 ≤ (s.ns nsid).blocks) → (∃ r ∈ ranges, 0 < r.2) →
    ∃ t, exec (.deallocate c nsid ranges) s = .next t ∧
      Buffered c ((ranges.filter fun r => decide (0 < r.2)).map fun r => zeroPart c nsid r.1 r.2) s t) ∧
  (∀ c nsid slba blocks data s, Accepts c .operational s → s.lbaCheck c.fn nsid slba blocks = .success →
    blocks ≤ 512 → s.flash.readOnly = true →
    (∃ t, exec (.write c nsid slba blocks data) s = .next t ∧
      Posts s t { src := c, status := .namespaceWriteProtected } ∧ HostFrame c s t) ∧
    (∃ t, exec (.writeZeroes c nsid slba blocks) s = .next t ∧
      Posts s t { src := c, status := .namespaceWriteProtected } ∧ HostFrame c s t)) ∧
  (∀ c nsid ranges s, Accepts c .operational s → s.nsUsable c.fn nsid = true →
    (∀ r ∈ ranges, r.1 + r.2 ≤ (s.ns nsid).blocks) →
    (s.flash.readOnly = true → ∃ t, exec (.deallocate c nsid ranges) s = .next t ∧
      Posts s t { src := c, status := .namespaceWriteProtected } ∧ HostFrame c s t) ∧
    (s.flash.readOnly = false → (∀ r ∈ ranges, r.2 = 0) → ∃ t, exec (.deallocate c nsid ranges) s = .next t ∧
      Posts s t { src := c, status := .success } ∧ HostFrame c s t))

/-- A record whose application changes no block: all but ERASE_DONE and RETIRE. -/
def JRec.plain : JRec → Bool
  | .eraseDone _ _ _ => false
  | .retire _ _ => false
  | _ => true

/-- WRITE_ACCEPT of a part whose turn it is gives the part the next place in the order of acceptance and counts
its IUs as written by the host. IU_READ_BACK of an IU still to be programmed, with every codeword decoded with
at most 48 corrected bits, makes the page that State.iuProgram gives the IU's location; with a codeword beyond
that, it counts a strike against the block, which is open no longer, and the IU is still to be programmed; at
the third failure the write, where the part is the only one in the buffer, completes with Write Fault and its
part is gone. None of these changes the map. JOURNAL_RECORD_DURABLE, where the journal can be written, takes
the oldest group of queued records: each takes the next sequence number, and the map becomes what replaying
the records gives; a write that waited for this part alone completes with success. (Rests on parts of R261,
R262, R263, R273, R276, R301, R302.) -/
def Obligations.WritePathEvents : Prop :=
  (∀ part p s, s.part part = some p → s.mayAccept p = true →
    ∃ t, exec (.writeAccept part) s = .next t ∧ t.flash.nextAccept = s.flash.nextAccept + 1 ∧
      (∃ q ∈ t.flash.parts, q.id = part ∧ q.order = s.flash.nextAccept) ∧
      t.flash.hostIu = s.flash.hostIu + BitVec.ofNat 64 p.ius.length ∧ t.flash.map = s.flash.map ∧
      t.flash.media = s.flash.media ∧ t.host = s.host ∧ t.ts = s.ts ∧ t.benches = s.benches) ∧
  (∀ part iu worst p u e s, s.part part = some p → p.stage = 1 →
    (p.ius.any fun x => x.1 == iu && x.2.2 == 0) = true → s.iuProgram p iu = some (u, e) → worst ≤ 48 →
    ∃ t, exec (.iuReadBack part iu (some worst)) s = .next t ∧ t.flash.mediaIu = u.flash.mediaIu ∧
      t.flash.media = u.flash.media ∧ t.flash.map = s.flash.map ∧ t.ts = s.ts ∧ t.benches = s.benches ∧
      (∀ x ∈ p.ius, x.1 = iu → ∃ q ∈ t.flash.parts, q.id = part ∧ (iu, x.2.1 + 1, e.ppa + 1) ∈ q.ius)) ∧
  (∀ part iu worst p u e s, s.part part = some p → p.stage = 1 →
    (p.ius.any fun x => x.1 == iu && x.2.2 == 0) = true → s.iuProgram p iu = some (u, e) →
    (∀ n, worst = some n → 48 < n) → (∀ x ∈ p.ius, x.1 = iu → x.2.1 < 2) →
    ∃ t, exec (.iuReadBack part iu worst) s = .next t ∧ t.flash.map = s.flash.map ∧ t.ts = s.ts ∧
      (t.blk (pageBlock e.ppa)).strikes = (u.blk (pageBlock e.ppa)).strikes + 1 ∧
      (t.openOn (t.blockStack (pageBlock e.ppa)) false).contains (pageBlock e.ppa) = false ∧
      t.host = u.host ∧
      (∀ x ∈ p.ius, x.1 = iu → ∃ q ∈ t.flash.parts, q.id = part ∧ (iu, x.2.1 + 1, 0) ∈ q.ius)) ∧
  (∀ part iu worst p u e o s, s.flash.parts = [p] → p.id = part → p.stage = 1 →
    (p.ius.any fun x => x.1 == iu && x.2.2 == 0 && decide (2 ≤ x.2.1)) = true → s.iuProgram p iu = some (u, e) →
    (∀ n, worst = some n → 48 < n) → Pre.noAers s → s.host.ops = [o] → o.kind = .write [part] .success →
    (s.ctl o.src.fn).rdy = true →
    ∃ t, exec (.iuReadBack part iu worst) s = .next t ∧ Posts s t { src := o.src, status := .writeFault } ∧
      t.flash.parts = [] ∧ t.host.ops = [] ∧ t.flash.map = s.flash.map ∧ t.ts = s.ts) ∧
  (∀ s rs rest, s.flash.queued = (none, rs) :: rest → s.journalStack.isSome = true →
    s.flash.journalPages + 1 < ckptEvery → (∀ r ∈ rs, JRec.plain r = true) →
    ∃ t, exec .journalRecordDurable s = .next t ∧ t.flash.queued = rest ∧
      t.flash.jseq = s.flash.jseq + rs.length ∧ t.flash.map = rs.foldl replayRec s.flash.map ∧
      t.ts = s.ts ∧ t.benches = s.benches) ∧
  (∀ s i r rest o, s.flash.queued = (some i, [r]) :: rest → s.journalStack.isSome = true →
    s.flash.journalPages + 1 < ckptEvery → s.host.ops = [o] → o.kind = .write [i] .success →
    (s.ctl o.src.fn).rdy = true → (∃ nsid slba blocks ius, r = .write nsid slba blocks ius) →
    ∃ t, exec .journalRecordDurable s = .next t ∧ Posts s t { src := o.src, status := .success } ∧
      t.host.ops = [] ∧ t.flash.jseq = s.flash.jseq + 1 ∧ t.flash.map = replayRec s.flash.map r)

/-- A Flush that covers no outstanding write completes with success at once; one that covers some stays
outstanding, waiting for exactly those, which are the outstanding writes of its controller with a part in the
namespace (with NSID 0xFFFF_FFFF, in one that its controller may use). An Abort of a command that is not
outstanding, and of a write of which a part has been accepted, completes with bit 0 of Dword 0 set and has no
other effect. An Abort of an outstanding Flush, and of a write of which no part has been accepted, ends it
with Command Abort Requested and completes with bit 0 clear; the parts of the write leave the write buffer.
(Rests on parts of R304, R301, R146.) -/
def Obligations.FlushAndAbort : Prop :=
  (∀ c nsid s, Accepts c .operational s → (nsid = 0xFFFFFFFF ∨ s.nsUsable c.fn nsid = true) →
    s.writesCovered c.fn nsid = [] →
    ∃ t, exec (.flush c nsid) s = .next t ∧ Posts s t { src := c, status := .success } ∧ HostFrame c s t) ∧
  (∀ c nsid s, Accepts c .operational s → (nsid = 0xFFFFFFFF ∨ s.nsUsable c.fn nsid = true) →
    s.writesCovered c.fn nsid ≠ [] →
    ∃ t, exec (.flush c nsid) s = .next t ∧ PostsNone s t ∧ t.host.ops = s.host.ops ++
      [{ id := s.host.nextOp, src := c, kind := .flush (s.writesCovered c.fn nsid), since := s.now }] ∧
      CoreSame s t) ∧
  (∀ c sq cid s, Accepts c .operational s → s.opOf c.fn sq cid = none →
    ∃ t, exec (.abort c sq cid) s = .next t ∧ Posts s t { src := c, status := .success, dw0 := 1 } ∧
      HostFrame c s t) ∧
  (∀ c sq cid o ws s, Accepts c .operational s → s.opOf c.fn sq cid = some o → s.op o.id = some o →
    o.kind = .flush ws →
    ∃ t, exec (.abort c sq cid) s = .next t ∧
      t.host.completions = s.host.completions ++
        [{ src := o.src, status := .abortRequested }, { src := c, status := .success }] ∧
      t.host.ops = (s.host.ops.filter fun x => x.id != o.id) ∧ CoreSame s t) ∧
  (∀ c sq cid o ps st s, Accepts c .operational s → s.opOf c.fn sq cid = some o → o.kind = .write ps st →
    (∃ p ∈ s.flash.parts, p.id ∈ ps ∧ 1 ≤ p.stage) →
    ∃ t, exec (.abort c sq cid) s = .next t ∧ Posts s t { src := c, status := .success, dw0 := 1 } ∧
      HostFrame c s t) ∧
  (∀ c sq cid o ps st s, Accepts c .operational s → s.opOf c.fn sq cid = some o → s.op o.id = some o →
    o.kind = .write ps st → (∀ p ∈ s.flash.parts, p.id ∈ ps → p.stage = 0) →
    (∀ x ∈ s.host.ops, ∀ ws, x.kind ≠ .flush ws) →
    ∃ t, exec (.abort c sq cid) s = .next t ∧
      t.host.completions = s.host.completions ++
        [{ src := o.src, status := .abortRequested }, { src := c, status := .success }] ∧
      t.host.ops = (s.host.ops.filter fun x => x.id != o.id) ∧
      t.flash.parts = (s.flash.parts.filter fun p => !ps.contains p.id) ∧ t.flash.map = s.flash.map ∧
      t.flash.media = s.flash.media ∧ t.ts = s.ts ∧ t.benches = s.benches) ∧
  (∀ (fn nsid i : Nat) (s : State), i ∈ s.writesCovered fn nsid ↔ ∃ o ∈ s.host.ops, o.id = i ∧ o.src.fn = fn ∧
    ∃ ps st, o.kind = .write ps st ∧ ∃ p ∈ s.flash.parts, p.id ∈ ps ∧
      (p.nsid = nsid ∨ (nsid = 0xFFFFFFFF ∧ s.nsUsable fn p.nsid = true)))

/-- Nothing is outstanding and no peer write waits, so that the end of a wait releases nothing else. -/
abbrev Pre.still (s : State) : Prop := s.host.ops = [] ∧ s.fabric.heldWrites = []

/-- Nothing else is outstanding, no peer write waits and no checkpoint holds anything back. -/
abbrev Pre.idle (s : State) : Prop := s.host.ops = [] ∧ s.fabric.heldWrites = [] ∧ s.ckpt.phase = 0

/-- With the index free: a Load Program of a predicate image of 16 to 3,088 bytes enters it; a Load Program of an
unsigned bench image that passes the checks of R140 and can be placed, while signing is not required, enters
it with its binding and extends measurement 10 by the image's digest. Both complete with success. Program
Activation Management of a loaded index with activation completes with success and does nothing. Unload
Program, with nothing outstanding, takes the program out of its index and completes with success. (Rests on
parts of R305, R306, R140, R141, R401, R404.) -/
def Obligations.ProgramsLoadAndUnload : Prop :=
  (∀ c index image s, Accepts c .operational s → index ≤ 15 → 16 ≤ image.len → image.len ≤ 3088 →
    (s.prog (progKey c.fn index)).loaded = false →
    ∃ t, exec (.loadProgram c index 1 image) s = .next t ∧ Posts s t { src := c, status := .success } ∧
      t.prog (progKey c.fn index) = { loaded := true, kind := 1, image := image } ∧
      (∀ k, k ≠ progKey c.fn index → t.prog k = s.prog k) ∧ CoreSame s t ∧ MgmtSame s t) ∧
  (∀ c index image ps s, Accepts c .operational s → index ≤ 15 → 64 ≤ image.len →
    image.bytes.getLe 8 4 = image.len → s.sec.signRequired = false →
    (s.prog (progKey c.fn index)).loaded = false →
    imageFault (image.bytes.slice 0 image.len 0) image.len = none →
    s.placeAll (imageEntries (image.bytes.slice 0 image.len 0)) (List.range 8) [] = .ok ps →
    ∃ t, exec (.loadProgram c index 2 image) s = .next t ∧ Posts s t { src := c, status := .success } ∧
      (t.prog (progKey c.fn index)).loaded = true ∧ (t.prog (progKey c.fn index)).kind = 2 ∧
      (t.prog (progKey c.fn index)).binds.map (·.bench) = ps.map (·.bench) ∧
      t.sec.measurement10 = Config.shake256 64 (s.sec.measurement10 ++
        Config.shake256 64 ((image.bytes.slice 0 image.len 0).getBytes 0 image.len)) ∧
      t.ts = s.ts ∧ t.flash = s.flash ∧ t.fabric = s.fabric ∧ t.ckpt = s.ckpt ∧ t.pending = s.pending) ∧
  (∀ c index s, Accepts c .operational s → index ≤ 15 → (s.prog (progKey c.fn index)).loaded = true →
    ∃ t, exec (.programActivationManagement c index true) s = .next t ∧
      Posts s t { src := c, status := .success } ∧ HostFrame c s t) ∧
  (∀ c index s, Accepts c .operational s → Pre.idle s → index ≤ 15 → (s.prog (progKey c.fn index)).loaded = true →
    (∀ b ∈ s.benchesOf (progKey c.fn index), (s.bench b).retirePending = false ∧
      (s.bench b).walker.retirePending = false ∧ (∀ a, (s.arr b a).retirePending = false) ∧
      (s.region (regionOf b)).haul.pendingGroups = []) →
    ∃ t, exec (.unloadProgram c index) s = .next t ∧ Posts s t { src := c, status := .success } ∧
      (t.prog (progKey c.fn index)).loaded = false ∧
      (∀ b ∈ s.benchesOf (progKey c.fn index), (t.bench b).bind = none ∧ (t.bench b).seq.st = .unbound ∧
        (t.bench b).t0 = []) ∧
      (∀ k, k ≠ progKey c.fn index → t.prog k = s.prog k) ∧ t.ts = s.ts ∧ t.flash = s.flash ∧ t.fabric = s.fabric)

/-- With nothing outstanding and every bench of the program quiet, an Execute Program with 64 bytes of parameters
starts the program: the command stays outstanding and posts nothing yet, and every bench bound to the program
is RUNNING at its entry pc with no loop, generator or jump state and its accumulator banks cleared. Its bench
store and vector registers keep their contents. An index without a bench program, or a parameter block of
another length, ends with Invalid Field in Command. (Rests on parts of R144, R307, R121, R148.) -/
def Obligations.ExecuteProgramStarts : Prop :=
  (∀ c index params s, Accepts c .operational s → Pre.idle s → index ≤ 15 →
    (s.prog (progKey c.fn index)).loaded = true → (s.prog (progKey c.fn index)).kind = 2 →
    (s.prog (progKey c.fn index)).running = none → (s.prog (progKey c.fn index)).hoistNext = none →
    (s.benchesOf (progKey c.fn index)).Nodup → (∀ b ∈ s.benchesOf (progKey c.fn index), (s.bench b).quiet = true) →
    params.len = 64 →
    ∃ t, exec (.executeProgram c index params) s = .next t ∧ PostsNone s t ∧
      (t.prog (progKey c.fn index)).running = some s.host.nextOp ∧
      (t.prog (progKey c.fn index)).params = paramWords params ∧
      (∀ b ∈ s.benchesOf (progKey c.fn index), t.bench b = (s.bench b).started ∧
        (t.bench b).seq.st = .running ∧ (t.bench b).t0 = (s.bench b).t0 ∧ (t.bench b).vec = (s.bench b).vec) ∧
      (∀ b, b ∉ s.benchesOf (progKey c.fn index) → t.bench b = s.bench b) ∧
      t.ts = s.ts ∧ t.flash = s.flash ∧ t.fabric = s.fabric ∧ t.pending = s.pending) ∧
  (∀ c index params s, Accepts c .operational s →
    (15 < index ∨ (s.prog (progKey c.fn index)).loaded = false ∨ (s.prog (progKey c.fn index)).kind ≠ 2 ∨
      params.len ≠ 64) →
    ∃ t, exec (.executeProgram c index params) s = .next t ∧ Posts s t { src := c, status := .invalidField } ∧
      HostFrame c s t)

/-- The products of a predicate program: its terms cut after every term with the last bit. -/
def products : List Term → List (List Term)
  | [] => []
  | t :: r => if t.last then [t] :: products r else
    match products r with
    | [] => [[t]]
    | p :: ps => (t :: p) :: ps

/-- For a program whose last term ends a product: the evaluation of a record answers the index of the first
product of which every term, with its negate bit applied after its opcode, holds; it answers none exactly when
no product holds. EQ, LT, GE and RANGE compare attribute words as unsigned numbers, SLT, SGE and SRANGE as
signed ones; ANY_SET, ALL_SET and MASK_EQ test bits under a mask; IN holds when the word equals one of the
pool words listed; TRUE always holds. (Rests on parts of R43, R45.) -/
def Obligations.PredicateIsSumOfProducts : Prop :=
  (∀ (pool attr : Nat → Nat) (ts : List Term), (∃ t, ts.getLast? = some t ∧ t.last = true) →
    (evalTerms pool attr ts true 0 0).1 =
      (products ts).findIdx? fun p => p.all fun t => (evalTerm pool t (attr t.attr)).1 != t.negate) ∧
  (∀ (pool : Nat → Nat) (t : Term) (v : Nat),
    (t.opcode = 1 → evalTerm pool t v = (decide (v = pool t.opA), 1)) ∧
    (t.opcode = 2 → evalTerm pool t v = (decide (v < pool t.opA), 1)) ∧
    (t.opcode = 3 → evalTerm pool t v = (decide (pool t.opA ≤ v), 1)) ∧
    (t.opcode = 4 → evalTerm pool t v = (decide (pool t.opA ≤ v ∧ v ≤ pool t.opB), 1)) ∧
    (t.opcode = 5 → evalTerm pool t v = (decide (signed 64 v < signed 64 (pool t.opA)), 1)) ∧
    (t.opcode = 6 → evalTerm pool t v = (decide (signed 64 (pool t.opA) ≤ signed 64 v), 1)) ∧
    (t.opcode = 7 → evalTerm pool t v =
      (decide (signed 64 (pool t.opA) ≤ signed 64 v ∧ signed 64 v ≤ signed 64 (pool t.opB)), 1)) ∧
    (t.opcode = 9 → evalTerm pool t v = (decide (v &&& pool t.opA ≠ 0), 1)) ∧
    (t.opcode = 10 → evalTerm pool t v = (decide (v &&& pool t.opA = pool t.opA), 1)) ∧
    (t.opcode = 11 → evalTerm pool t v = (decide (v &&& pool t.opA = pool t.opB), 1)) ∧
    (t.opcode = 12 → (evalTerm pool t v).1 = ((List.range t.opB).any fun i => pool (t.opA + i) == v)) ∧
    (t.opcode = 15 → evalTerm pool t v = (true, 0)))

/-- A scan command's descriptor and program pass every check of R44, R46 and
R308. -/
abbrev Pre.scannable (c : Src) (index : Nat) (params : Buf) (bufLen : Nat) (sgl : Bool) (s : State) : Prop :=
  Accepts c .operational s ∧ index ≤ 15 ∧ (s.prog (progKey c.fn index)).loaded = true ∧
    (s.prog (progKey c.fn index)).kind = 1 ∧ params.len = 128 ∧
    scanFieldsOk params.bytes (predSchema (s.prog (progKey c.fn index)).image.bytes 0) = true ∧
    s.nsUsable c.fn (scanOf params.bytes).nsid = true ∧
    (scanOf params.bytes).startLba + (scanOf params.bytes).lbaCount ≤ (s.ns (scanOf params.bytes).nsid).blocks ∧
    (scanOf params.bytes).bufferFault bufLen sgl = none ∧
    predCheck (s.prog (progKey c.fn index)).image.bytes 0 (some (s.prog (progKey c.fn index)).image.len) = none

/-- An Execute Program with a scan descriptor that passes every check starts a scan that waits for a pin and posts
nothing. MAP_EPOCH_PIN of the scan that waits first, with fewer than 16 pins held, pins the epoch: the scan
leaves the waiting list, holds a pin at the current journal sequence, and its pages, one per four logical
blocks of its range in ascending order, are those it has still to read. (Rests on parts of R46, R55, R47,
R406.) -/
def Obligations.ScansStartAndPin : Prop :=
  (∀ c index params bufLen sgl s, Pre.scannable c index params bufLen sgl s →
    ∃ t, exec (.executeScan c index params bufLen sgl) s = .next t ∧ PostsNone s t ∧
      t.flash.pinWait = s.flash.pinWait ++ [s.host.nextOp] ∧
      t.scans = s.scans ++ [{ scanOf params.bytes with
        id := s.host.nextOp, op := s.host.nextOp, fn := c.fn, prog := progKey c.fn index }] ∧
      t.flash.map = s.flash.map ∧ t.ts = s.ts ∧ t.benches = s.benches) ∧
  (∀ i x rest s, s.scan i = some x → s.flash.pinWait = i :: rest → s.flash.pins.length < 16 →
    x.stopped = false → s.ckpt.phase = 0 →
    ∃ t, exec (.mapEpochPin i) s = .next t ∧ t.flash.pinWait = rest ∧
      t.flash.pins = s.flash.pins ++ [{ scan := i, nsid := x.nsid, seq := s.flash.jseq }] ∧
      (∃ y, t.scan i = some y ∧ y.pinned = true ∧
        y.pages.map (·.lba) = (List.range (x.lbaCount / 4)).map fun k => x.startLba + 4 * k) ∧
      t.flash.map = s.flash.map ∧ t.host = s.host ∧ t.ts = s.ts ∧ t.benches = s.benches)

/-- MAP_EPOCH_PIN never takes the number of pins above 16; with 16 pins held the scan waits with no error and
nothing changes; and only the scan that waits first, the one submitted first, can take a pin. (R57.) -/
def Obligations.AtMostSixteenPins : Prop :=
  (∀ i s, s.flash.pins.length ≤ 16 → ∃ t, exec (.mapEpochPin i) s = .next t ∧ t.flash.pins.length ≤ 16) ∧
  (∀ i s, 16 ≤ s.flash.pins.length → exec (.mapEpochPin i) s = .next s) ∧
  (∀ i j rest s, s.flash.pinWait = j :: rest → i ≠ j → exec (.mapEpochPin i) s = .next s)

/-- The next page of scan `i` on stack `k`: the scan, whose turn it is there, its program and the page. -/
abbrev Pre.sieving (i k : Nat) (x : Scan) (pg : ScanPage) (s : State) : Prop :=
  s.scan i = some x ∧ (x.pages.find? fun p => p.stack == k) = some pg ∧ s.sieveTurn k = some i ∧
    s.flash.mounted = true

/-- The contents of the page at `lba` as scan `i` sees it: what its pinned epoch maps, zeros where nothing is mapped; a page on
a retired die is rebuilt from its stripe. -/
abbrev pageSeen (s : State) (i nsid lba : Nat) : Mem :=
  match s.pinnedMap i (iuKey nsid (lba / 4)) with
  | 0 => []
  | p + 1 => if s.pageGone p then s.rebuilt p else tget [] s.flash.media p

/-- SIEVE_PAGE of the page whose turn it is: a page that cannot be read, or of which a block is marked unreadable,
stops the scan with Unrecovered Read Error; a page of zeros counts as empty; a malformed page stops the scan
with Record Format Error under policy 0 and is skipped and counted under policy 1, and the check it failed is
recorded for its stack; from a well-formed page the records that pass are merged into the output in slot
order. No page changes the map or tensor space. (Rests on parts of R36, R39, R41, R51, R52, R53.) -/
def Obligations.SievePageOutcomes : Prop :=
  (∀ i k x pg s, Pre.sieving i k x pg s →
    ∃ t y, exec (.sievePage i k false) s = .next t ∧ t.scan i = some y ∧ y.stopped = true ∧
      y.status = .unrecoveredRead ∧ t.flash.map = s.flash.map ∧ t.ts = s.ts ∧ t.host = s.host) ∧
  (∀ i k x pg s, Pre.sieving i k x pg s → s.pinMarked x pg.lba = true →
    ∃ t y, exec (.sievePage i k true) s = .next t ∧ t.scan i = some y ∧ y.stopped = true ∧
      y.status = .unrecoveredRead ∧ t.flash.map = s.flash.map ∧ t.ts = s.ts ∧ t.host = s.host) ∧
  (∀ i k x pg s, Pre.sieving i k x pg s → s.pinMarked x pg.lba = false →
    (pageSeen s i x.nsid pg.lba).zeroAt 0 16384 = true →
    ∃ t y, exec (.sievePage i k true) s = .next t ∧ t.scan i = some y ∧ y.empty = x.empty + 1 ∧
      y.pagesRead = x.pagesRead + 1 ∧ y.out = x.out ∧ y.stopped = x.stopped ∧
      (t.stack k).sievePages = (s.stack k).sievePages + 1 ∧ t.flash.map = s.flash.map ∧ t.ts = s.ts ∧
      t.host = s.host) ∧
  (∀ i k x pg s, Pre.sieving i k x pg s → s.pinMarked x pg.lba = false →
    (pageSeen s i x.nsid pg.lba).zeroAt 0 16384 = false →
    ∃ t y, exec (.sievePage i k true) s = .next t ∧ t.scan i = some y ∧ t.flash.map = s.flash.map ∧ t.ts = s.ts ∧ t.host = s.host ∧
      (pageCheck (pageSeen s i x.nsid pg.lba) x.schema ≠ 0 →
        (t.stack k).sieveLastError = pageCheck (pageSeen s i x.nsid pg.lba) x.schema ∧
        (t.stack k).malformedSeen = true ∧ y.out = x.out ∧ y.returned = x.returned ∧
        (x.policy = 0 → y.stopped = true ∧ y.status = .vendor 0xC4 ∧ y.skipped = x.skipped) ∧
        (x.policy ≠ 0 → y.stopped = x.stopped ∧ y.skipped = x.skipped + 1)) ∧
      (pageCheck (pageSeen s i x.nsid pg.lba) x.schema = 0 →
        y = x.merge (x.sieve (s.prog x.prog).image.bytes (pageSeen s i x.nsid pg.lba) pg.lba k) pg.lba))

/-- The records of a page that are taken never exceed what record_limit and output_size leave room for, and they
are all of the page's records where no limit stops the scan. SCAN_COMPLETE of a scan to the host's buffer that
has stopped without an Abort, or has returned its whole range, posts its status with the summary and the
records, releases its pin, and on success answers the number of records returned. FREE_POOL_CRITICAL_FLOOR
below 1 % of free blocks, while a pin keeps a block without valid data from being erased, stops the scan with
the oldest pin with Command Interrupted. (Rests on parts of R49, R50, R51, R58.) -/
def Obligations.ScanLimitsAndEnd : Prop :=
  (∀ (x : Scan) (l : List (List Byte)), x.returned ≤ x.recordLimit ∨ x.recordLimit = 0 →
    (x.takeRecords l).1 ≤ l.length ∧
    (x.recordLimit = 0 ∨ (x.takeRecords l).1 + x.returned ≤ x.recordLimit) ∧
    recordBytes (l.take (x.takeRecords l).1) ≤ x.outputSize - 64 - x.outBytes ∧
    ((x.takeRecords l).2 = 0 → (x.takeRecords l).1 = l.length)) ∧
  (∀ i x o s, s.scan i = some x → x.id = i → s.host.ops = [o] → o.id = x.op → (s.ctl o.src.fn).rdy = true →
    x.destTensor = false → x.status ≠ .abortRequested → (x.stopped = true ∨ (x.pinned = true ∧ x.pages = [])) →
    s.fabric.heldWrites = [] →
    ∃ t, exec (.scanComplete i) s = .next t ∧
      Posts s t { src := o.src, status := x.status
                  dw0 := if x.status = .success then BitVec.ofNat 32 (capNat 0xFFFFFFFF x.returned) else 0
                  reply := .data { len := 64 + x.outBytes, bytes := x.out.putBytes 0 x.summary } } ∧
      t.host.ops = [] ∧ t.flash.pins = (s.flash.pins.filter fun p => p.scan != i) ∧
      t.scans = (s.scans.filter fun y => y.id != i) ∧ t.ts = s.ts ∧ t.benches = s.benches) ∧
  (∀ p rest x s, s.flash.pins = p :: rest → s.flash.freePct < 1 → s.pinsHoldBack = true → s.scan p.scan = some x → x.stopped = false →
    ∃ t y, exec .freePoolCriticalFloor s = .next t ∧ t.scan p.scan = some y ∧ y.stopped = true ∧
      y.status = .commandInterrupted ∧ t.flash = s.flash ∧ t.host = s.host ∧ t.ts = s.ts)

/-- `n` bytes at `a` lie inside a RESIDENT extent that function `fn` may use, whose copy T2 or an active T1 slice
serves, with nothing poisoned and no memory word in error. -/
abbrev Pre.served (fn a n : Nat) (s : State) : Prop :=
  0 < n ∧ a + n ≤ 2 ^ 48 ∧ (s.die (addrDie a)).held = false ∧
    (s.extent (addrDie a) (addrSlot a)).st = 1 ∧
    ((s.extent (addrDie a) (addrSlot a)).owner = fn ∨ (s.extent (addrDie a) (addrSlot a)).shared = true) ∧
    a % 2 ^ 31 + n ≤ (s.extent (addrDie a) (addrSlot a)).length * 65536 ∧
    ((s.extent (addrDie a) (addrSlot a)).copyTier = 2 ∨
      ((s.extent (addrDie a) (addrSlot a)).copyTier = 1 ∧ (s.ctl fn).ps < 3 ∧
        (s.region (4 * addrDie a + (s.extent (addrDie a) (addrSlot a)).slice)).st = .active)) ∧
    (s.extent (addrDie a) (addrSlot a)).poison = [] ∧ (s.die (addrDie a)).poison = [] ∧ s.mgmt.planted = []

/-- A write there meets no write-protected tile, no armed injection and no peer window. -/
abbrev Pre.writes (fn a n : Nat) (s : State) : Prop :=
  Pre.served fn a n s ∧ (s.extent (addrDie a) (addrSlot a)).writeProtect = [] ∧ s.mgmt.eccArm = false ∧
    s.boundWindow (addrDie a) (addrSlot a) = none

/-- With nothing else outstanding, on bytes of an extent that the issuing function may use and that T2 or an
active T1 slice serves: Memory Read returns those bytes and changes no byte; Memory Write puts its data there,
changes no other byte of tensor space and marks the tiles copy-dirty where the extent has a home; Memory Copy
out of a namespace puts the blocks' bytes there, and into a namespace enters the write buffer. A Memory Read
that runs beyond its extent, or falls in a FREE slot, ends with LBA Out of Range, and one of another
function's unshared extent with Access Denied. (Rests on parts of R165, R174, R183, R309.) -/
def Obligations.MemoryCommands : Prop :=
  (∀ c a n s, Accepts c .operational s → Pre.idle s → Pre.served c.fn a n s → n ≤ 2097152 →
    ∃ t, exec (.memoryRead c a n) s = .next t ∧
      Posts s t { src := c, status := .success, reply := .data { len := n, bytes := Mem.copyIn [] 0 s.ts.mem a n } } ∧
      t.ts.mem = s.ts.mem ∧ t.flash = s.flash ∧ t.benches = s.benches ∧ t.fabric = s.fabric) ∧
  (∀ c a d s, Accepts c .operational s → Pre.idle s → Pre.writes c.fn a d.len s → d.len ≤ 2097152 → d.bytes.wf = true →
    ∃ t, exec (.memoryWrite c a d) s = .next t ∧ Posts s t { src := c, status := .success } ∧
      (∀ i, i < d.len → t.ts.mem.get (a + i) = d.bytes.get i) ∧
      (∀ x, x < a ∨ a + d.len ≤ x → t.ts.mem.get x = s.ts.mem.get x) ∧
      ((s.extent (addrDie a) (addrSlot a)).homeTier ≠ 0 →
        ∀ k ∈ tilesOf a d.len, k ∈ (t.extent (addrDie a) (addrSlot a)).copyDirty) ∧
      t.flash = s.flash ∧ t.benches = s.benches ∧ t.fabric = s.fabric) ∧
  (∀ c a nsid slba blocks s, Accepts c .operational s → Pre.idle s → s.lbaCheck c.fn nsid slba blocks = .success →
    0 < blocks → blocks ≤ 512 → s.anyMarked nsid slba blocks = false → Pre.writes c.fn a (4096 * blocks) s →
    ∃ t, exec (.memoryCopy c a nsid slba blocks false) s = .next t ∧ Posts s t { src := c, status := .success } ∧
      t.ts.mem = s.ts.mem.copyIn a (s.readBlocks nsid slba blocks) 0 (4096 * blocks) ∧
      t.flash.map = s.flash.map ∧ t.benches = s.benches) ∧
  (∀ c a nsid slba blocks s, Accepts c .operational s → Pre.idle s → s.lbaCheck c.fn nsid slba blocks = .success →
    0 < blocks → blocks ≤ 512 → s.flash.readOnly = false → Pre.served c.fn a (4096 * blocks) s →
    ∃ t, exec (.memoryCopy c a nsid slba blocks true) s = .next t ∧ PostsNone s t ∧
      t.flash.parts.length = s.flash.parts.length + (writePieces slba blocks).length ∧
      t.ts.mem = s.ts.mem ∧ t.flash.map = s.flash.map ∧ t.benches = s.benches) ∧
  (∀ c a n s, Accepts c .operational s → Pre.idle s → 0 < n → n ≤ 2097152 → (s.die (addrDie a)).held = false →
    (2 ^ 48 < a + n ∨ (s.extent (addrDie a) (addrSlot a)).st = 0 ∨
      (s.extent (addrDie a) (addrSlot a)).length * 65536 < a % 2 ^ 31 + n) →
    ∃ t, exec (.memoryRead c a n) s = .next t ∧ Posts s t { src := c, status := .lbaOutOfRange } ∧
      t.ts.mem = s.ts.mem ∧ t.flash = s.flash ∧ t.benches = s.benches) ∧
  (∀ c a n s, Accepts c .operational s → Pre.idle s → 0 < n → n ≤ 2097152 → a + n ≤ 2 ^ 48 →
    (s.die (addrDie a)).held = false → (s.extent (addrDie a) (addrSlot a)).st ≠ 0 →
    a % 2 ^ 31 + n ≤ (s.extent (addrDie a) (addrSlot a)).length * 65536 →
    (s.extent (addrDie a) (addrSlot a)).owner ≠ c.fn → (s.extent (addrDie a) (addrSlot a)).shared = false →
    ∃ t, exec (.memoryRead c a n) s = .next t ∧ Posts s t { src := c, status := .accessDenied } ∧
      t.ts.mem = s.ts.mem ∧ t.flash = s.flash ∧ t.benches = s.benches)

/-- An extent command of `c` names the extent in slot `j` of face die `d`, which its function owns. -/
abbrev Pre.names (c : Src) (dw10 dw11 : Word) (d j : Nat) (s : State) : Prop :=
  Accepts c .operational s ∧ Pre.idle s ∧ s.ownExtent c.fn dw10 dw11 = some (d, j)

/-- With nothing else outstanding and no reset under way: Extent Create of a length that fits its tier takes the
lowest FREE slot of its die, reads as zero over its whole length, and answers its base address; Extent Free of
an extent that no checkpoint set names stays outstanding, to wait for the outstanding executes and scans that
could access the extent, and EXTENT_FREE_EFFECT with nothing left to wait for frees the slot, zeroes its tiles
and completes it; Extent Pin where the copy lies, of a RESIDENT extent, sets its pin, and Unpin clears it;
Extent Place of a RESIDENT extent to the tier that already holds the copy completes at once, and to the tier
of its home or to another with room it queues a move of class 4 and posts nothing yet. (Rests on parts of
R166, R169, R170, R181.) -/
def Obligations.ExtentCommands : Prop :=
  (∀ c dw10 j s, Accepts c .operational s → Pre.idle s → s.resets = [] → fld dw10 31 24 = 0 → 1 ≤ fld dw10 15 0 →
    fld dw10 15 0 ≤ 32768 → fld dw10 18 17 ≠ 0 → (s.die (fld dw10 16 16)).held = false →
    s.freeSlot (fld dw10 16 16) = some j → (fld dw10 18 17 = 1 → fld dw10 15 0 ≤ 7936) →
    (fld dw10 18 17 = 1 → ∀ r, (s.region r).st ≠ .reset) →
    s.fits (fld dw10 16 16) (fld dw10 18 17) (s.sliceFor (fld dw10 16 16) (fld dw10 20 19)) (fld dw10 15 0) c.fn = true →
    ∃ t, exec (.extentCreate c dw10) s = .next t ∧
      Posts s t { src := c, status := .success, dw0 := BitVec.ofNat 32 (extentBase (fld dw10 16 16) j)
                  dw1 := BitVec.ofNat 32 (extentBase (fld dw10 16 16) j / 2 ^ 32) } ∧
      (t.extent (fld dw10 16 16) j).st = 1 ∧ (t.extent (fld dw10 16 16) j).length = fld dw10 15 0 ∧
      (t.extent (fld dw10 16 16) j).copyTier = fld dw10 18 17 ∧ (t.extent (fld dw10 16 16) j).owner = c.fn ∧
      (t.extent (fld dw10 16 16) j).pinned = bitOf dw10.toNat 22 ∧
      (t.extent (fld dw10 16 16) j).shared = bitOf dw10.toNat 23 ∧
      (∀ x, extentBase (fld dw10 16 16) j ≤ x → x < extentBase (fld dw10 16 16) j + fld dw10 15 0 * 65536 →
        t.ts.mem.get x = 0) ∧
      (∀ d k, (d ≠ fld dw10 16 16 ∨ k ≠ j) → t.extent d k = s.extent d k) ∧
      t.flash = s.flash ∧ t.benches = s.benches ∧ t.fabric = s.fabric) ∧
  (∀ c dw10 dw11 d j s, Accepts c .operational s → s.ownExtent c.fn dw10 dw11 = some (d, j) → s.inSet d j = false →
    ∃ t, exec (.extentFree c dw10 dw11) s = .next t ∧ PostsNone s t ∧ t.ts = s.ts ∧
      t.host.ops = s.host.ops ++
        [{ id := s.host.nextOp, src := c, kind := .free d j (s.accessors (s.extent d j)), since := s.now }] ∧
      t.flash = s.flash ∧ t.benches = s.benches) ∧
  (∀ (e : Extent) (i : Nat) (s : State), i ∈ s.accessors e ↔ ∃ o ∈ s.host.ops, o.id = i ∧ (e.shared = true ∨ o.src.fn = e.owner) ∧
    ((∃ k p st, o.kind = .execute k p st) ∨ ∃ x, o.kind = .scan x)) ∧
  (∀ d j o ws s, s.host.ops = [o] → s.fabric.heldWrites = [] → o.kind = .free d j ws → o.id ∉ ws → (s.ctl o.src.fn).rdy = true →
    s.mgmt.planted = [] →
    ∃ t, exec (.extentFreeEffect d j) s = .next t ∧ Posts s t { src := o.src, status := .success } ∧
      (t.extent d j).st = 0 ∧
      (∀ x, extentBase d j ≤ x → x < extentBase d j + (s.extent d j).length * 65536 → t.ts.mem.get x = 0) ∧
      (∀ k, k ≠ j → t.extent d k = s.extent d k) ∧ t.flash = s.flash ∧ t.benches = s.benches) ∧
  (∀ c dw10 dw11 d j s, Pre.names c dw10 dw11 d j s → s.resets = [] → (s.extent d j).st = 1 →
    ∃ t, exec (.extentPin c dw10 dw11 0) s = .next t ∧ Posts s t { src := c, status := .success } ∧
      t.extent d j = { s.extent d j with pinned := true } ∧ t.ts.mem = s.ts.mem ∧ t.flash = s.flash) ∧
  (∀ c dw10 dw11 d j s, Pre.names c dw10 dw11 d j s → (s.extent d j).st ≠ 3 →
    ∃ t, exec (.extentUnpin c dw10 dw11) s = .next t ∧ Posts s t { src := c, status := .success } ∧
      t.extent d j = { s.extent d j with pinned := false, pinOnCommit := false } ∧ t.ts.mem = s.ts.mem ∧
      t.flash = s.flash) ∧
  (∀ c dw10 dw11 dw12 d j s, Pre.names c dw10 dw11 d j s → s.resets = [] → (s.extent d j).st = 1 →
    fld dw12 31 2 = 0 → fld dw12 1 0 = (s.extent d j).copyTier → fld dw12 1 0 ≠ 0 →
    ∃ t, exec (.extentPlace c dw10 dw11 dw12) s = .next t ∧ Posts s t { src := c, status := .success } ∧
      t.ts = s.ts ∧ t.flash = s.flash ∧ t.benches = s.benches) ∧
  (∀ c dw10 dw11 dw12 d j s, Pre.names c dw10 dw11 d j s → s.resets = [] → (s.extent d j).st = 1 →
    fld dw12 31 2 = 0 → fld dw12 1 0 ≠ (s.extent d j).copyTier → fld dw12 1 0 ≠ 0 →
    (fld dw12 1 0 = (s.extent d j).homeTier ∨ s.fits d (fld dw12 1 0) (s.sliceFor d (s.extent d j).affinity)
      (s.extent d j).length (s.extent d j).owner = true) → (fld dw12 1 0 = 1 → (s.extent d j).length ≤ 7936) →
    (s.die d).queue = [] →
    ∃ t, exec (.extentPlace c dw10 dw11 dw12) s = .next t ∧ PostsNone s t ∧
      (t.die d).queue = [{ slot := j, tier := fld dw12 1 0, cls := 4, order := (s.die d).nextOrder }] ∧
      t.ts.mem = s.ts.mem ∧ t.flash = s.flash ∧ t.benches = s.benches)

/-- Tensor Space Configure of a PF, with no extent in T3 and room in the advertised capacity, sets the T3 size.
Quota Set of a PF sets the quota of the named tier for a function of its group: all ones mean the whole pool.
Hoist List Attach keeps a list that passes the checks of R184 for the next execute of a loaded bench program;
a length of zero detaches the list, and a list that fails the checks of R184 ends with Program Fault. (Rests
on parts of R168, R169, R184.) -/
def Obligations.TensorSpaceSettings : Prop :=
  (∀ c dw10 s, AcceptsPf c .operational s → Pre.still s → fld dw10 31 14 = 0 → fld dw10 13 0 ≤ 16000 →
    s.t3InUse = false → s.allocated + fld dw10 13 0 * 1000000000 ≤ s.advertised →
    ∃ t, exec (.tensorSpaceConfigure c dw10) s = .next t ∧ Posts s t { src := c, status := .success } ∧
      t.ts = { s.ts with t3Gb := fld dw10 13 0 } ∧ t.flash = s.flash ∧ t.benches = s.benches) ∧
  (∀ c dw10 dw11 s, AcceptsPf c .operational s → Pre.still s → fld dw10 7 6 = 0 → fld dw10 31 10 = 0 →
    fld dw10 9 8 ≠ 0 → (pfGroup c.fn).contains (fld dw10 5 0) = true →
    ∃ t, exec (.quotaSet c dw10 dw11) s = .next t ∧ Posts s t { src := c, status := .success } ∧
      t.quota (fld dw10 5 0) (fld dw10 9 8) = (if dw11 = 0xFFFFFFFF#32 then none else some dw11.toNat) ∧
      (∀ x, 0 < x → x ≤ 3 → x ≠ fld dw10 9 8 → t.quota (fld dw10 5 0) x = s.quota (fld dw10 5 0) x) ∧
      (∀ f, f ≠ c.fn → f ≠ fld dw10 5 0 → t.ctl f = s.ctl f) ∧ t.ts = s.ts ∧ t.flash = s.flash) ∧
  (∀ c dw10 s image, Accepts c .operational s → fld dw10 31 4 = 0 →
    (s.prog (progKey c.fn (fld dw10 3 0))).loaded = true → (s.prog (progKey c.fn (fld dw10 3 0))).kind = 2 →
    ∃ t, exec (.hoistListAttach c dw10 0 image) s = .next t ∧ Posts s t { src := c, status := .success } ∧
      t.prog (progKey c.fn (fld dw10 3 0)) = { s.prog (progKey c.fn (fld dw10 3 0)) with hoistNext := none } ∧
      CoreSame s t) ∧
  (∀ c dw10 s image, Accepts c .operational s → fld dw10 31 4 = 0 → 0 < image.len → image.len < 2 ^ 32 →
    (s.prog (progKey c.fn (fld dw10 3 0))).loaded = true → (s.prog (progKey c.fn (fld dw10 3 0))).kind = 2 →
    ∃ t, exec (.hoistListAttach c dw10 (BitVec.ofNat 32 image.len) image) s = .next t ∧ CoreSame s t ∧
      (s.hoistOk image.bytes image.len = true → Posts s t { src := c, status := .success } ∧
        (t.prog (progKey c.fn (fld dw10 3 0))).hoistNext = some (hoistListOf image.bytes)) ∧
      (s.hoistOk image.bytes image.len = false →
        Posts s t { src := c, status := .vendor 0xC1, dw0 := 6 } ∧
        t.prog (progKey c.fn (fld dw10 3 0)) = s.prog (progKey c.fn (fld dw10 3 0))))

/-- Space tile `k` of the move of slot `j` of die `d` has landed: it is counted by its direction, and the last one has
committed the move. -/
structure TileLanded (d j k : Nat) (s t : State) : Prop where
  up : (s.extent d j).destTier < (s.extent d j).copyTier →
    (t.die d).promoted = (s.die d).promoted + 1 ∧ (t.die d).demoted = (s.die d).demoted
  down : (s.extent d j).copyTier < (s.extent d j).destTier →
    (t.die d).demoted = (s.die d).demoted + 1 ∧ (t.die d).promoted = (s.die d).promoted
  last : (∀ x ∈ (s.extent d j).toLand, x = k) → (t.extent d j).st = 1 ∧
    (t.extent d j).copyTier = (s.extent d j).destTier ∧
    ((s.extent d j).destTier < (s.extent d j).copyTier → (t.extent d j).homeTier = (s.extent d j).copyTier)
  more : (∃ x ∈ (s.extent d j).toLand, x ≠ k) → (t.extent d j).st = 2 ∧
    (t.extent d j).landed = insSorted k (s.extent d j).landed

/-- With nothing outstanding: MOVE_START of the one queued move of an extent that is not pinned, whose destination
has room, makes the extent MOVING; while a first-touch copy of the die is under way no move starts and no tile
lands. SPACE_TILE_LANDED between T2 and T3 lands the next tile of the move, counted as promoted or demoted,
downwards only when its program unit passes read-back (a free value, notes/assumptions/112.md); the last tile
commits the move: the extent is RESIDENT in the destination, and upwards the source becomes the home.
HOIST_ENGINE_RE_ARM clears the stop. FIRST_TOUCH_COPY_DONE puts the tile's contents into the shadow space and
clears its protection. None of them changes a byte of tensor space. (Rests on parts of R171, R172, R173, R174,
R180, R181, R209, R265, R353, R354.) -/
def Obligations.MovesKeepContents : Prop :=
  (∀ d m s, Pre.still s → s.host.programs = [] → (s.die d).queue = [m] → (s.die d).hoist.stopped = false →
    s.copies d = false → s.movesActive d < 64 → s.holdFloors d = s → (s.extent d m.slot).pinned = false → (s.extent d m.slot).st = 1 → (s.extent d m.slot).copyTier ≠ m.tier →
    s.regionReady (s.moveSlice d (s.extent d m.slot) m.tier) = true → m.tier ≠ (s.extent d m.slot).homeTier →
    s.fits d m.tier (s.sliceFor d (s.extent d m.slot).affinity) (s.extent d m.slot).length (s.extent d m.slot).owner = true →
    ∃ t, exec (.moveStart d) s = .next t ∧ (t.extent d m.slot).st = 2 ∧ (t.extent d m.slot).destTier = m.tier ∧
      (t.extent d m.slot).copyTier = (s.extent d m.slot).copyTier ∧ (t.extent d m.slot).landed = [] ∧
      (t.die d).queue = [] ∧ t.ts.mem = s.ts.mem ∧ t.host = s.host ∧ t.flash = s.flash ∧ t.benches = s.benches) ∧
  (∀ d s, s.copies d = true → exec (.moveStart d) s = .next s ∧ ∀ j r, exec (.spaceTileLanded d j r) s = .next s) ∧
  (∀ d j k s, Pre.still s → (s.extent d j).st = 2 → (s.die d).hoist.stopped = false → s.copies d = false →
    (s.extent d j).copyTier = 3 → (s.extent d j).destTier = 2 → (s.extent d j).nextTile = some k →
    (s.die d).poison = [] → s.mgmt.planted = [] →
    ∃ t, exec (.spaceTileLanded d j true) s = .next t ∧ TileLanded d j k s t ∧ t.ts.mem = s.ts.mem ∧
      t.host = s.host ∧ t.benches = s.benches) ∧
  (∀ d j k s, Pre.still s → (s.extent d j).st = 2 → (s.die d).hoist.stopped = false → s.copies d = false →
    (s.extent d j).copyTier = 2 → (s.extent d j).destTier = 3 → (s.extent d j).nextTile = some k →
    (s.die d).poison = [] → s.mgmt.planted = [] →
    (s.programUnit (s.tileStacks (tileAddr d j k)) (s.tileData (tileAddr d j k))).isSome = true →
    ∃ t, exec (.spaceTileLanded d j true) s = .next t ∧ t.ts.mem = s.ts.mem ∧ t.host.ops = s.host.ops ∧
      t.benches = s.benches ∧
      (readBackOk (Config.readBack s.flash.readBackDraws) = true → TileLanded d j k s t) ∧
      (readBackOk (Config.readBack s.flash.readBackDraws) = false → t.extent d j = s.extent d j)) ∧
  (∀ d s, (s.die d).hoist.stopped = true →
    ∃ t, exec (.hoistEngineReArm d) s = .next t ∧ (t.die d).hoist.stopped = false ∧
      (t.die d).hoist.armed = 0xFFFF ∧ (t.die d).hoist.errValid = false ∧ t.ts.mem = s.ts.mem ∧ t.host = s.host) ∧
  (∀ d j k s, Pre.still s → ((s.die d).touched.any fun w => w.slot == j && w.tile == k && w.copying) = true →
    (s.extent d j).writeProtect.contains k = true → (s.die d).hoist.stopped = false →
    (s.die d).poison = [] → s.mgmt.planted = [] →
    ∃ t, exec (.firstTouchCopyDone d j k) s = .next t ∧ t.ts.mem = s.ts.mem ∧
      t.ckpt.shadow = s.ckpt.shadow ++ [(d, j, k)] ∧
      (t.die d).shadowMem = (s.die d).shadowMem.copyIn (tileAddr d j k) s.ts.mem (tileAddr d j k) 65536 ∧
      (t.extent d j).writeProtect = ((s.extent d j).writeProtect.filter fun w => w != k) ∧
      t.host = s.host ∧ t.benches = s.benches)

/-- The sequencer of bench `b`, bound as `g`, stands at a step that it may treat. -/
abbrev Pre.stepping (b : Nat) (g : Binding) (s : State) : Prop :=
  (s.bench b).bind = some g ∧ ((s.bench b).seq.st = .running ∨ (s.bench b).seq.st = .waiting) ∧
    s.benchAwake b = true ∧ (s.bench b).seq.atBarrier = none ∧ (s.bench b).seq.arriving = none ∧
    (s.bench b).seq.finishing = false ∧ (s.prog g.prog).running.isSome = true

/-- The skip of the step at which bench `b` stands is not taken, or has been evaluated and was not (R118). -/
abbrev Pre.unskipped (b : Nat) (s : State) : Prop :=
  (s.bench b).seq.skipTested = true ∨ (s.bench b).step.skips (s.bench b).seq = false

/-- Nothing holds the step of bench `b` back: no missing route word, no skip, no wait and no closed gate. -/
abbrev Pre.issues (b : Nat) (g : Binding) (s : State) : Prop :=
  Pre.stepping b g s ∧ ((s.bench b).step.readsRoute = false ∨ (s.bench b).seq.routeQueue ≠ []) ∧
    Pre.unskipped b s ∧ s.stepWaits b (s.bench b).step g = [] ∧
    ((s.bench b).step.gateWait = false ∨ (s.bench b).gate.fired = true)

/-- The step of bench `b` does nothing but take its flow. -/
abbrev Pre.plain (w : StepWord) : Prop :=
  w.arrayOp = 0 ∧ w.vecLaunch = false ∧ w.walkLaunch = false ∧ w.agCfgEn = false ∧ w.loopSetEn = false ∧
    w.raiseMask = 0 ∧ w.syncOp = 0

/-- Bench `b` takes part in the execution for the one outstanding command `o`. -/
abbrev Pre.execution (b : Nat) (g : Binding) (o : Op) (s : State) : Prop :=
  (s.bench b).bind = some g ∧ b ∈ s.benchesOf g.prog ∧ (s.prog g.prog).running = some o.id ∧
    s.host.ops = [o] ∧ s.fabric.heldWrites = [] ∧ (s.ctl o.src.fn).rdy = true

/-- The execution of `o` has ended with fault `code` of bench `b` at step `pc` (R145). -/
structure Faulted (b : Nat) (g : Binding) (o : Op) (code pc : Nat) (s t : State) : Prop where
  posted : Posts s t { src := o.src, status := .vendor 0xC1, dw0 := faultDword code g.logical pc }
  ops : t.host.ops = []
  idle : (t.prog g.prog).running = none
  st : (t.bench b).seq.st = .faulted
  code : (t.bench b).seq.faultCode = code
  pc : (t.bench b).seq.faultPc = pc
  mem : t.ts.mem = s.ts.mem
  flash : t.flash = s.flash
  fabric : t.fabric = s.fabric
  ckpt : t.ckpt = s.ckpt
  sec : t.sec = s.sec
  pending : t.pending = s.pending

/-- Only the bench `b` and, with it, nothing of its region but the requests it raised have changed. -/
structure OneBench (b : Nat) (s t : State) : Prop where
  only : BenchOnly s t
  others : ∀ x, x ≠ b → t.bench x = s.bench x
  regions : t.regions = s.regions

/-- For a bench whose sequencer stands at a step and whose region is awake: a step that reads the route queue
while it is empty waits for a route word; a skip that is taken when the step is first treated passes over
skip_len steps and counts them and the step itself as skipped; a step held back by its waits stands and shows
their causes, and one held by a closed gate shows the gate. A step that issues and has no action but its flow
counts as a step and goes on at the next step (flow 0), at its target (flow 1) or, at the end of a loop (flow
2), at its target until the loop's count is reached and at the next step then, with the index cleared;
routePop takes the head of the route queue. A step whose flow leaves the last step ends the execution with
fault 0x12. Nothing outside the bench changes but for that end. (Rests on parts of R115, R116, R118, R120,
R123, R128, R131.) -/
def Obligations.SequencerSteps : Prop :=
  (∀ b g s, Pre.stepping b g s → (s.bench b).step.readsRoute = true → (s.bench b).seq.routeQueue = [] →
    ∃ t, exec (.sequencerStep b) s = .next t ∧ (t.bench b).seq.st = .waiting ∧
      (t.bench b).seq.waitCause = [waitRoute] ∧ (t.bench b).seq.pc = (s.bench b).seq.pc ∧
      (t.bench b).seqSteps = (s.bench b).seqSteps ∧ OneBench b s t) ∧
  (∀ b g s, Pre.stepping b g s → ((s.bench b).step.readsRoute = false ∨ (s.bench b).seq.routeQueue ≠ []) →
    (s.bench b).seq.skipTested = false → (s.bench b).step.skips (s.bench b).seq = true →
    (s.bench b).seq.pc + (s.bench b).step.skipLen + 1 < g.stepCount →
    ∃ t, exec (.sequencerStep b) s = .next t ∧ (t.bench b).seq.st = .running ∧
      (t.bench b).seq.pc = (s.bench b).seq.pc + (s.bench b).step.skipLen + 1 ∧
      (t.bench b).skippedSteps = (s.bench b).skippedSteps + BitVec.ofNat 64 ((s.bench b).step.skipLen + 1) ∧
      (t.bench b).seqSteps = (s.bench b).seqSteps ∧
      (t.bench b).seq.routeQueue = (s.bench b).seq.routeQueue.drop (if (s.bench b).step.routePop then 1 else 0) ∧
      OneBench b s t) ∧
  (∀ b g s, Pre.stepping b g s → ((s.bench b).step.readsRoute = false ∨ (s.bench b).seq.routeQueue ≠ []) →
    Pre.unskipped b s → s.stepWaits b (s.bench b).step g ≠ [] →
    ∃ t, exec (.sequencerStep b) s = .next t ∧ (t.bench b).seq.st = .waiting ∧
      (t.bench b).seq.waitCause = s.stepWaits b (s.bench b).step g ∧
      (t.bench b).seq.pc = (s.bench b).seq.pc ∧ (t.bench b).seqSteps = (s.bench b).seqSteps ∧ OneBench b s t) ∧
  (∀ b g s, Pre.stepping b g s → ((s.bench b).step.readsRoute = false ∨ (s.bench b).seq.routeQueue ≠ []) →
    Pre.unskipped b s → s.stepWaits b (s.bench b).step g = [] →
    (s.bench b).step.gateWait = true → (s.bench b).gate.fired = false →
    ∃ t, exec (.sequencerStep b) s = .next t ∧ (t.bench b).seq.st = .waiting ∧
      (t.bench b).seq.waitCause = [waitGate] ∧ (t.bench b).gate.waiting = true ∧
      (t.bench b).seq.pc = (s.bench b).seq.pc ∧ OneBench b s t) ∧
  (∀ b g s, Pre.issues b g s → Pre.plain (s.bench b).step → (s.bench b).step.flow = 0 →
    (s.bench b).seq.pc + 1 < g.stepCount →
    ∃ t, exec (.sequencerStep b) s = .next t ∧ (t.bench b).seq.st = .running ∧
      (t.bench b).seq.pc = (s.bench b).seq.pc + 1 ∧ (t.bench b).seqSteps = (s.bench b).seqSteps + 1 ∧
      (t.bench b).gate.fired = false ∧
      (t.bench b).seq.routeQueue = (s.bench b).seq.routeQueue.drop (if (s.bench b).step.routePop then 1 else 0) ∧
      (t.bench b).t0 = (s.bench b).t0 ∧ (t.bench b).vec = (s.bench b).vec ∧
      (t.bench b).arrays = (s.bench b).arrays ∧ OneBench b s t) ∧
  (∀ b g s, Pre.issues b g s → Pre.plain (s.bench b).step → (s.bench b).step.flow = 1 →
    (s.bench b).step.target < g.stepCount →
    ∃ t, exec (.sequencerStep b) s = .next t ∧ (t.bench b).seq.pc = (s.bench b).step.target ∧
      (t.bench b).seq.st = .running ∧ (t.bench b).seqSteps = (s.bench b).seqSteps + 1 ∧ OneBench b s t) ∧
  (∀ b g c s, Pre.issues b g s → Pre.plain (s.bench b).step → (s.bench b).step.flow = 2 →
    (s.bench b).seq.loopCount.getD (s.bench b).step.loopSel none = some c → (s.bench b).seq.loopIdx.length = 4 →
    (s.bench b).step.target < g.stepCount → (s.bench b).seq.pc + 1 < g.stepCount →
    ∃ t, exec (.sequencerStep b) s = .next t ∧ (t.bench b).seq.st = .running ∧ OneBench b s t ∧
      (if (s.bench b).seq.loopIdx.getD (s.bench b).step.loopSel 0 + 1 < c then
        (t.bench b).seq.pc = (s.bench b).step.target ∧
          (t.bench b).seq.loopIdx.getD (s.bench b).step.loopSel 0 =
            (s.bench b).seq.loopIdx.getD (s.bench b).step.loopSel 0 + 1
      else (t.bench b).seq.pc = (s.bench b).seq.pc + 1 ∧
        (t.bench b).seq.loopIdx.getD (s.bench b).step.loopSel 0 = 0)) ∧
  (∀ b g o s, Pre.issues b g s → Pre.plain (s.bench b).step → (s.bench b).step.flow = 0 →
    g.stepCount ≤ (s.bench b).seq.pc + 1 → Pre.execution b g o s →
    ∃ t, exec (.sequencerStep b) s = .next t ∧ Faulted b g o 0x12 (s.bench b).seq.pc s t)

/-- When a step issues a STREAM of one to 256 rows, its source generator gives an aligned T0 address for every
array of its mask, and one of those logical arrays has had no LOAD since the execution began, the execution
ends with fault 0x0F at that step. (R127.) -/
def Obligations.StreamWithoutLoadFaults : Prop :=
  ∀ b g o s, Pre.issues b g s → Pre.execution b g o s → (s.bench b).step.arrayOp = 2 →
    (s.bench b).step.agCfgEn = false → (s.bench b).step.loopSetEn = false →
    1 ≤ (s.bench b).step.rows (s.bench b).seq → (s.bench b).step.rows (s.bench b).seq ≤ 256 →
    (∀ a, a < 4 → bitOf (s.bench b).step.arrayMask a = true →
      ∃ x, s.agAddress b (s.bench b).step.srcAg a 64 = some (1, x)) →
    (∃ a, a < 4 ∧ bitOf (s.bench b).step.arrayMask a = true ∧ thas (s.bench b).seq.tileAddr a = false) →
    ∃ t, exec (.sequencerStep b) s = .next t ∧ Faulted b g o 0x0F (s.bench b).seq.pc s t

/-- END_COMPLETE of a bench whose END waits and which has nothing under way makes it ENDED with an empty route
queue; while another logical bench has not ended the command stays outstanding, and with the last one it
completes with success. BARRIER_RELEASE, once every participant still running has arrived, clears the
arrivals, and every bench that waits at the barrier goes on with its flow. WAIT_LIMIT_EXPIRE of a step that
has waited longer than the limit, the gate's time left out, ends the execution with fault 0x0D, and a step
that waits on the gate does not expire. (Rests on parts of R130, R133, R134, R145, R152.) -/
def Obligations.BenchesEndAndMeet : Prop :=
  (∀ b g s, (s.bench b).bind = some g → (s.bench b).seq.finishing = true → s.fenceClear b = true →
    (s.bench b).seq.routeInbox = [] → (∃ e ∈ (s.prog g.prog).binds, e.logical ≠ g.logical ∧
      e.logical ∉ (s.prog g.prog).ended) →
    ∃ t, exec (.endComplete b) s = .next t ∧ (t.bench b).seq.st = .ended ∧ (t.bench b).seq.finishing = false ∧
      (t.bench b).seq.routeQueue = [] ∧ (t.prog g.prog).ended = (s.prog g.prog).ended ++ [g.logical] ∧
      (t.prog g.prog).running = (s.prog g.prog).running ∧ PostsNone s t ∧ t.host.ops = s.host.ops ∧
      (∀ x, x ≠ b → t.bench x = s.bench x) ∧ t.ts = s.ts ∧ t.flash = s.flash) ∧
  (∀ b g o s, Pre.execution b g o s → (s.bench b).seq.finishing = true → s.fenceClear b = true →
    (s.bench b).seq.routeInbox = [] →
    (∀ e ∈ (s.prog g.prog).binds, e.logical = g.logical ∨ e.logical ∈ (s.prog g.prog).ended) →
    ∃ t, exec (.endComplete b) s = .next t ∧ (t.bench b).seq.st = .ended ∧
      Posts s t { src := o.src, status := .success } ∧ t.host.ops = [] ∧ (t.prog g.prog).running = none ∧
      (∀ x, x ≠ b → t.bench x = s.bench x) ∧ t.ts.mem = s.ts.mem ∧ t.flash = s.flash) ∧
  (∀ b n g s, (s.bench b).bind = some g → tget [] (s.prog g.prog).arrived n ≠ [] →
    (∀ l ∈ (s.prog g.prog).participants n, l ∈ tget [] (s.prog g.prog).arrived n) →
    (s.benchesOf g.prog).Nodup →
    (∀ x ∈ s.benchesOf g.prog, ∃ h, (s.bench x).bind = some h ∧ (s.bench x).seq.arriving ≠ some n ∧
      ((s.bench x).seq.atBarrier = some n → (s.bench x).step.flow = 0 ∧ (s.bench x).step.routePop = false ∧
        (s.bench x).seq.pc + 1 < h.stepCount)) →
    ∃ t, exec (.barrierRelease b n) s = .next t ∧ tget [] (t.prog g.prog).arrived n = [] ∧
      (∀ x ∈ s.benchesOf g.prog, (s.bench x).seq.atBarrier = some n →
        (t.bench x).seq.atBarrier = none ∧ (t.bench x).seq.st = .running ∧
        (t.bench x).seq.pc = (s.bench x).seq.pc + 1) ∧
      (∀ x, (x ∉ s.benchesOf g.prog ∨ (s.bench x).seq.atBarrier ≠ some n) → t.bench x = s.bench x) ∧
      PostsNone s t ∧ t.ts = s.ts ∧ t.flash = s.flash) ∧
  (∀ b g o w s, Pre.execution b g o s → (s.bench b).seq.st = .waiting → (s.bench b).seq.waitSince = some w →
    (s.bench b).seq.gateSince = none → (s.bench b).seq.waitLimit ≠ 0 →
    w + 1000 * (s.bench b).seq.waitLimit < s.dieNow (benchDie b) →
    ∃ t, exec (.waitLimitExpire b) s = .next t ∧ Faulted b g o 0x0D (s.bench b).seq.pc s t) ∧
  (∀ b s, ((s.bench b).seq.gateSince ≠ none ∨ (s.bench b).seq.waitLimit = 0) →
    exec (.waitLimitExpire b) s = .next s)

/-- GATE_FIRE of a gate on which a step waits and whose row queue has reached its fill, or whose oldest row has
reached the deadline, hands over up to 256 rows, oldest first, and counts the kind of firing; with neither it
does nothing. REMOTE_ROUTE_DELIVER puts the oldest word on its way into the bench's route queue, and discards
it, counted at the bench that posted it, when the bench has ENDED. (Rests on parts of R106, R107, R151, R152.) -/
def Obligations.GateAndRoutes : Prop :=
  (∀ b r rest s, (s.bench b).gate.rows = r :: rest → (s.bench b).gate.waiting = true → s.benchAwake b = true →
    ((s.bench b).gate.fill ≤ rest.length + 1 ∨ r + (s.bench b).gate.deadlineTicks ≤ s.dieNow (benchDie b)) →
    ∃ t, exec (.gateFire b) s = .next t ∧ (t.bench b).gate.fired = true ∧ (t.bench b).gate.waiting = false ∧
      (t.bench b).gate.rows = (r :: rest).drop 256 ∧ (t.bench b).seq.gateCount = Nat.min 256 (rest.length + 1) ∧
      (t.bench b).seq.st = .running ∧
      ((s.bench b).gate.fill ≤ rest.length + 1 → (t.bench b).gate.lastByDeadline = false ∧
        (t.bench b).gate.fillCount = (s.bench b).gate.fillCount + 1 ∧
        (t.bench b).gate.deadlineCount = (s.bench b).gate.deadlineCount) ∧
      (rest.length + 1 < (s.bench b).gate.fill → (t.bench b).gate.lastByDeadline = true ∧
        (t.bench b).gate.fillCount = (s.bench b).gate.fillCount ∧
        (t.bench b).gate.deadlineCount = (s.bench b).gate.deadlineCount + 1) ∧ OneBench b { s with mgmt := t.mgmt } t ∧
        MgmtSame s t) ∧
  (∀ b r rest s, (s.bench b).gate.rows = r :: rest → rest.length + 1 < (s.bench b).gate.fill →
    s.dieNow (benchDie b) < r + (s.bench b).gate.deadlineTicks → exec (.gateFire b) s = .next s) ∧
  (∀ b w p rest s, (s.bench b).seq.routeInbox = (w, p) :: rest → (s.bench b).seq.st ≠ .ended →
    ∃ t, exec (.remoteRouteDeliver b) s = .next t ∧
      (t.bench b).seq.routeQueue = (s.bench b).seq.routeQueue ++ [w] ∧ (t.bench b).seq.routeInbox = rest ∧
      (t.bench b).routePosted = (s.bench b).routePosted + 1 ∧ OneBench b s t) ∧
  (∀ b w p rest s, (s.bench b).seq.routeInbox = (w, p) :: rest → (s.bench b).seq.st = .ended → p ≠ b →
    ∃ t, exec (.remoteRouteDeliver b) s = .next t ∧ (t.bench b).seq.routeQueue = (s.bench b).seq.routeQueue ∧
      (t.bench b).seq.routeInbox = rest ∧ (t.bench p).routeDiscarded = (s.bench p).routeDiscarded + 1 ∧
      (∀ x, x ≠ b → x ≠ p → t.bench x = s.bench x) ∧ BenchOnly s t ∧ t.regions = s.regions)

/-- The vector unit of bench `b` runs in an awake region, and its next word is the valid word `w` of opcode `op`. -/
abbrev Pre.vec (b op : Nat) (w : VecWord) (s : State) : Prop :=
  (s.bench b).vec.running = true ∧ s.benchAwake b = true ∧ (s.bench b).nextWord = w ∧ w.valid = true ∧ w.opcode = op

/-- Bench `t` is bench `s` with the conditions `f` set in BN_ARITH_STAT. -/
structure Noted (f : Flags) (s t : Bench) : Prop where
  nonfinite : t.nonfiniteIn = (s.nonfiniteIn || f.nonfinite)
  saturated : t.outSaturated = (s.outSaturated || f.saturated)
  invalid : t.fpInvalid = (s.fpInvalid || f.invalid)
  overflow : t.fpOverflow = (s.fpOverflow || f.overflow)

/-- What every vector word leaves: it is the next word's turn, or the kernel has ended; nothing but this bench changes,
and of it neither the sequencer, nor the arrays, nor the walker. -/
structure VecFrame (b : Nat) (w : VecWord) (s t : State) : Prop where
  one : OneBench b s t
  vpc : (t.bench b).vec.vpc = (s.bench b).vec.vpc + 1
  running : (t.bench b).vec.running = !w.last
  seq : (t.bench b).seq = (s.bench b).seq
  arrays : (t.bench b).arrays = (s.bench b).arrays
  walker : (t.bench b).walker = (s.bench b).walker
  gate : (t.bench b).gate = (s.bench b).gate

/-- The lanes `l` have been written to `dst` with the conditions of `l`; every other register and T0 are as before. -/
structure LanesWritten (b : Nat) (w : VecWord) (l : List (Word × Flags)) (s t : State) : Prop where
  frame : VecFrame b w s t
  dst : (t.bench b).vec.lanes w.dst = l.map (·.1)
  rest : ∀ r, r ≠ w.dst → (t.bench b).vec.lanes r = (s.bench b).vec.lanes r
  flags : Noted (flagsOf l) (s.bench b) (t.bench b)
  t0 : (t.bench b).t0 = (s.bench b).t0

/-- The rows of one, two or three operands: each lane of `dst` is the lane operation `f` on the lanes of its operands,
in the format of the word. -/
def OneOperand (i : Nat → Instr) (op : Nat) (f : VFmt → Word → Word × Flags) : Prop :=
  ∀ b w s, Pre.vec b op w s → ∃ t, exec (i b) s = .next t ∧
    LanesWritten b w (((s.bench b).vec.lanes w.srcA).map (f w.fmt)) s t

/-- Two operands. -/
def TwoOperands (i : Nat → Instr) (op : Nat) (f : VFmt → Word → Word → Word × Flags) : Prop :=
  ∀ b w s, Pre.vec b op w s → ∃ t, exec (i b) s = .next t ∧
    LanesWritten b w (List.zipWith (f w.fmt) ((s.bench b).vec.lanes w.srcA) ((s.bench b).vec.lanes w.srcB)) s t

/-- Three operands. -/
def ThreeOperands (i : Nat → Instr) (op : Nat) (f : VFmt → Word → Word → Word → Word × Flags) : Prop :=
  ∀ b w s, Pre.vec b op w s → ∃ t, exec (i b) s = .next t ∧
    LanesWritten b w ((List.range 256).map fun n => f w.fmt (((s.bench b).vec.lanes w.srcA).getD n 0)
      (((s.bench b).vec.lanes w.srcB).getD n 0) (((s.bench b).vec.lanes w.srcC).getD n 0)) s t

/-- ADD, SUB, MUL, CMPLT, DIV, FMA, SEL, SQRT, RSQRT, EXP, MAX, MIN and CVT write every lane of dst with the lane
operation of Table 5.7 on the same lane of their operands in the word's format (CVT reads src_a in the format
that src_c names), note the conditions, and go on to the next word or end the kernel. Every other register,
T0, the sequencer, the arrays and everything outside the bench stay as they were. (Rests on parts of R82,
R136, R471, Table 5.7.) -/
def Obligations.VectorLanes : Prop :=
  TwoOperands .add 0x10 laneAdd ∧ TwoOperands .sub 0x11 laneSub ∧ TwoOperands .mul 0x12 laneMul ∧
  ThreeOperands .fma 0x13 laneFma ∧ TwoOperands .cmplt 0x16 laneCmplt ∧ ThreeOperands .sel 0x17 laneSel ∧
  TwoOperands .div 0x18 laneDiv ∧ OneOperand .sqrt 0x19 laneSqrt ∧ OneOperand .rsqrt 0x1A laneRsqrt ∧
  OneOperand .exp 0x1B laneExp ∧ TwoOperands .max 0x14 (laneExtremum true) ∧
  TwoOperands .min 0x15 (laneExtremum false) ∧
  (∀ b w f s, Pre.vec b 0x20 w s → vfmtOf w.srcC = some f → ∃ t, exec (.cvt b) s = .next t ∧
    LanesWritten b w (((s.bench b).vec.lanes w.srcA).map (convert f w.fmt)) s t)

/-- In I32, ADD, SUB, MUL and FMA wrap modulo 2^32 and raise nothing; in I16 and I8 the wrapped value is narrowed
with saturation, noted when it changed the value. A NaN operand of ADD, SUB, MUL, DIV or FMA in FP32 gives the
quiet NaN 0x7FC0_0000 and sets fp_invalid. CMPLT in FP32 with a NaN as its first operand writes 0 and sets
fp_invalid; in an integer format it writes 1 where a is below b and else 0, with no flag. SEL in I32 takes a
where c is not zero, else b. The maximum and the minimum in I32 are exact. CVT between equal formats copies
the lane, between different integer formats it saturates, and from FP32 or BF16 to an integer format a NaN
gives 0. RSUM, RMAX and RMIN write lane 0 of dst and keep its lanes 1 to 255, every other register and T0, and
note the conditions. In I32 the sum is the wrapped sum of the 256 lanes, and the maximum and the minimum are a
lane of src_a that none exceeds or undercuts. The maximum of lanes in FP32 that are all NaN is the quiet NaN
0x7FC0_0000. (The order in which FP32 sums combine is a free value, and so is what the maximum of numbers and
a NaN is: notes/assumptions/6.md.) (Rests on parts of R77, R82, R83, R471, Table 3.6.) -/
def Obligations.LaneArithmeticAndReductions : Prop :=
  (∀ a b c : Word, laneAdd .i32 a b = (a + b, {}) ∧ laneSub .i32 a b = (a - b, {}) ∧ laneMul .i32 a b = (a * b, {}) ∧
    laneFma .i32 a b c = (a * b + c, {})) ∧
  (∀ (f : VFmt) (a b c : Word), f = .i16 ∨ f = .i8 →
    ∀ e ∈ ([(laneAdd f a b, a + b), (laneSub f a b, a - b), (laneMul f a b, a * b), (laneFma f a b c, a * b + c)] :
        List ((Word × Flags) × Word)),
      e.1.1 = BitVec.ofInt 32 (clampInt f.lo f.hi e.2.toInt) ∧
      (e.1.2.saturated = true ↔ e.2.toInt < f.lo ∨ f.hi < e.2.toInt)) ∧
  (∀ a b c : Word, Fp.isNan a = true →
    (∀ e ∈ ([laneAdd .fp32 a b, laneAdd .fp32 b a, laneSub .fp32 a b, laneSub .fp32 b a, laneMul .fp32 a b,
        laneMul .fp32 b a, laneDiv .fp32 a b, laneDiv .fp32 b a, laneFma .fp32 a b c, laneFma .fp32 b a c,
        laneFma .fp32 b c a] : List (Word × Flags)), e.1 = 0x7FC00000 ∧ e.2.invalid = true) ∧
    (laneCmplt .fp32 a b).1 = 0 ∧ (laneCmplt .fp32 a b).2.invalid = true) ∧
  (∀ (f : VFmt) (a b : Word), f.isFloat = false → laneCmplt f a b = (if a.toInt < b.toInt then 1 else 0, {})) ∧
  (∀ a b c : Word, (laneSel .i32 a b c).1 = if c = 0 then b else a) ∧
  (∀ a b : Word, (laneExtremum true .i32 a b).1.toInt = max a.toInt b.toInt ∧
    (laneExtremum false .i32 a b).1.toInt = min a.toInt b.toInt) ∧
  (∀ (f : VFmt) (a : Word), convert f f a = (a, {})) ∧
  (∀ (f g : VFmt) (a : Word), f.isFloat = true → g.isFloat = false → Fp.isNan a = true → (convert f g a).1 = 0) ∧
  (∀ (f g : VFmt) (a : Word), f.isFloat = false → g.isFloat = false → f ≠ g →
    (convert f g a).1 = BitVec.ofInt 32 (clampInt g.lo g.hi a.toInt)) ∧
  (∀ l : List Word, l ≠ [] → (∀ x ∈ l, Fp.isNan x = true) → (reduceExtremum true .fp32 l).1 = 0x7FC00000) ∧
  (∀ b w s, Pre.vec b 0x28 w s → ∃ t, exec (.rsum b) s = .next t ∧ VecFrame b w s t ∧
    (t.bench b).t0 = (s.bench b).t0 ∧ (∀ r, r ≠ w.dst → (t.bench b).vec.lanes r = (s.bench b).vec.lanes r) ∧
    (t.bench b).vec.lanes w.dst = (reduceSum w.fmt ((s.bench b).vec.lanes w.srcA)).1 ::
      ((s.bench b).vec.lanes w.dst).drop 1 ∧
    Noted (reduceSum w.fmt ((s.bench b).vec.lanes w.srcA)).2 (s.bench b) (t.bench b)) ∧
  (∀ b w s, Pre.vec b 0x29 w s → ∃ t, exec (.rmax b) s = .next t ∧ VecFrame b w s t ∧
    (t.bench b).t0 = (s.bench b).t0 ∧ (∀ r, r ≠ w.dst → (t.bench b).vec.lanes r = (s.bench b).vec.lanes r) ∧
    (t.bench b).vec.lanes w.dst =
      (reduceExtremum true w.fmt ((s.bench b).vec.lanes w.srcA)).1 :: ((s.bench b).vec.lanes w.dst).drop 1 ∧
    Noted (reduceExtremum true w.fmt ((s.bench b).vec.lanes w.srcA)).2 (s.bench b) (t.bench b) ∧
    (w.fmt = .i32 → ((t.bench b).vec.lanes w.dst).headD 0 ∈ (s.bench b).vec.lanes w.srcA ∧
      ∀ x ∈ (s.bench b).vec.lanes w.srcA, x.toInt ≤ (((t.bench b).vec.lanes w.dst).headD 0).toInt)) ∧
  (∀ b w s, Pre.vec b 0x2A w s → ∃ t, exec (.rmin b) s = .next t ∧ VecFrame b w s t ∧
    (t.bench b).t0 = (s.bench b).t0 ∧ (∀ r, r ≠ w.dst → (t.bench b).vec.lanes r = (s.bench b).vec.lanes r) ∧
    (t.bench b).vec.lanes w.dst =
      (reduceExtremum false w.fmt ((s.bench b).vec.lanes w.srcA)).1 :: ((s.bench b).vec.lanes w.dst).drop 1 ∧
    Noted (reduceExtremum false w.fmt ((s.bench b).vec.lanes w.srcA)).2 (s.bench b) (t.bench b) ∧
    (w.fmt = .i32 → ((t.bench b).vec.lanes w.dst).headD 0 ∈ (s.bench b).vec.lanes w.srcA ∧
      ∀ x ∈ (s.bench b).vec.lanes w.srcA, (((t.bench b).vec.lanes w.dst).headD 0).toInt ≤ x.toInt)) ∧
  (∀ l : List Word, (reduceSum .i32 l).1 = l.foldl (fun a x => a + x) 0)

/-- The operand of a vector word of `n` bytes lies in T0, and no memory error is planted or armed. -/
abbrev Pre.inT0 (b n : Nat) (w : VecWord) (s : State) : Prop :=
  (s.bench b).vec.space = 1 ∧ (s.bench b).vec.base + w.imm + n ≤ 0x800000 ∧ s.mgmt.planted = [] ∧ s.mgmt.eccArm = false

/-- Where a vector word's operand lies. -/
abbrev vecAt (b : Nat) (w : VecWord) (s : State) : Nat := (s.bench b).vec.base + w.imm

/-- The byte of the image at a vector word's operand that holds the code of row `r` and column `x`. -/
abbrev codeByte (b : Nat) (w : VecWord) (s : State) (r x : Nat) : Nat :=
  vecAt b w s + 1088 + r * rowLen ((s.bench b).t0.getLe (vecAt b w s + 4) 1) +
    x * codeBits ((s.bench b).t0.getLe (vecAt b w s + 4) 1) / 8

/-- The bytes `bs` stand at `a` of T0 of bench `b`, the rest of T0 is as before, and no register has changed. -/
structure StoredT0 (b a : Nat) (bs : List Byte) (s t : State) : Prop where
  at_ : ∀ i, i < bs.length → (t.bench b).t0.get (a + i) = bs.getD i 0
  rest : ∀ x, (x < a ∨ a + bs.length ≤ x) → (t.bench b).t0.get x = (s.bench b).t0.get x
  regs : (t.bench b).vec.regs = (s.bench b).vec.regs

/-- With the operand in T0 and no memory error planted or armed: LD widens 256 elements of the word's format into
dst and changes no byte; ST stores the 256 lanes of src_a narrowed to the format; QUANT stores the row's 256
codes and its row descriptor, and with the append flag, while the row queue has room, appends a row stamped
with the KCLK count; ENCODE in its row form, with an image whose header passes, writes row x of the image, of
the codes of R67 under each column's scale, and keeps every other byte; in its column form it replaces the
code of column x in each of the first k_count rows, under that column's scale, and keeps every other bit.
ENCODE with an index above 255 ends the execution with fault 0x10, an image address that is not a multiple of
64 or whose header does not lie in T0 with 0x0B, and, with every address in T0, a header that fails with 0x07,
in that order. (Rests on parts of R70, R71, R82, R106, R137, R471.) -/
def Obligations.VectorMemory : Prop :=
  (∀ b w s, Pre.vec b 0x01 w s → Pre.inT0 b (256 * w.fmt.bytes) w s → ∃ t, exec (.ld b) s = .next t ∧
    LanesWritten b w ((List.range 256).map fun i =>
      (w.fmt.widen ((s.bench b).t0.getLe (vecAt b w s + i * w.fmt.bytes) w.fmt.bytes), {})) s t) ∧
  (∀ b w s, Pre.vec b 0x02 w s → Pre.inT0 b (256 * w.fmt.bytes) w s → ∃ t, exec (.st b) s = .next t ∧
    VecFrame b w s t ∧
    StoredT0 b (vecAt b w s) (((s.bench b).vec.lanes w.srcA).flatMap fun x => w.fmt.toBytes (w.fmt.store x).1) s t ∧
    Noted (flagsOf (((s.bench b).vec.lanes w.srcA).map w.fmt.store)) (s.bench b) (t.bench b)) ∧
  (∀ b w q s, Pre.vec b 0x30 w s → Pre.inT0 b 264 w s →
    q = quantise (w.fmt == .u8z) ((s.bench b).vec.lanes w.srcA) → (w.srcC = 1 → (s.bench b).gate.rows.length < 512) →
    ∃ t, exec (.quant b) s = .next t ∧
      StoredT0 b (vecAt b w s) (q.codes.map (BitVec.ofNat 8) ++
        descBytes q.scale q.zero (if w.fmt = .u8z then 1 else 2) q.nonfinite q.allZero) s t ∧
      Noted q.flags (s.bench b) (t.bench b) ∧ (t.bench b).vec.vpc = (s.bench b).vec.vpc + 1 ∧
      (t.bench b).gate.rows = (s.bench b).gate.rows ++ (if w.srcC = 1 then [s.dieNow (benchDie b)] else []) ∧
      OneBench b s t) ∧
  (∀ b w x s, Pre.vec b 0x31 w s → w.srcC = 0 → x = (((s.bench b).vec.lanes w.srcB).headD 0).toNat → x ≤ 255 →
    vecAt b w s % 64 = 0 → tileHeaderOk (s.bench b).t0 (vecAt b w s) = true →
    Pre.inT0 b (imageBytes ((s.bench b).t0.getLe (vecAt b w s + 4) 1)) w s →
    ∃ t, exec (.encode b) s = .next t ∧ VecFrame b w s t ∧
      StoredT0 b (vecAt b w s + 1088 + x * rowLen ((s.bench b).t0.getLe (vecAt b w s + 4) 1))
        (packRow ((s.bench b).t0.getLe (vecAt b w s + 4) 1)
          ((((s.bench b).vec.lanes w.srcA).take ((s.bench b).t0.getLe (vecAt b w s + 8) 2)).zipIdx.map fun e =>
            (encodeWeight ((s.bench b).t0.getLe (vecAt b w s + 4) 1) (codebookAt (s.bench b).t0 (vecAt b w s))
              ((s.bench b).t0.word (vecAt b w s + 64 + 4 * e.2)) e.1).1)) s t) ∧
  (∀ b w x s, Pre.vec b 0x31 w s → w.srcC = 1 → x = (((s.bench b).vec.lanes w.srcB).headD 0).toNat → x ≤ 255 →
    vecAt b w s % 64 = 0 → tileHeaderOk (s.bench b).t0 (vecAt b w s) = true →
    Pre.inT0 b (imageBytes ((s.bench b).t0.getLe (vecAt b w s + 4) 1)) w s →
    ∃ t, exec (.encode b) s = .next t ∧ VecFrame b w s t ∧ (t.bench b).vec.regs = (s.bench b).vec.regs ∧
      (∀ r, r < (s.bench b).t0.getLe (vecAt b w s + 6) 2 →
        (t.bench b).t0.get (codeByte b w s r x) = mergeCode ((s.bench b).t0.get (codeByte b w s r x))
          (codeBits ((s.bench b).t0.getLe (vecAt b w s + 4) 1))
          (x * codeBits ((s.bench b).t0.getLe (vecAt b w s + 4) 1) % 8)
          (encodeWeight ((s.bench b).t0.getLe (vecAt b w s + 4) 1) (codebookAt (s.bench b).t0 (vecAt b w s))
            ((s.bench b).t0.word (vecAt b w s + 64 + 4 * x)) (((s.bench b).vec.lanes w.srcA).getD r 0)).1) ∧
      (∀ y, (∀ r, r < (s.bench b).t0.getLe (vecAt b w s + 6) 2 → y ≠ codeByte b w s r x) →
        (t.bench b).t0.get y = (s.bench b).t0.get y)) ∧
  (∀ b w g o x s, Pre.vec b 0x31 w s → Pre.execution b g o s → x = (((s.bench b).vec.lanes w.srcB).headD 0).toNat →
    (255 < x → ∃ t, exec (.encode b) s = .next t ∧ Faulted b g o 0x10 (s.bench b).vec.launchPc s t) ∧
    (x ≤ 255 → (vecAt b w s % 64 ≠ 0 ∨ ((s.bench b).vec.space = 1 ∧ 0x800000 < vecAt b w s + 1088)) →
      ∃ t, exec (.encode b) s = .next t ∧ Faulted b g o 0x0B (s.bench b).vec.launchPc s t) ∧
    (x ≤ 255 → vecAt b w s % 64 = 0 →
      Pre.inT0 b (imageBytes ((s.bench b).t0.getLe (vecAt b w s + 4) 1)) w s → tileHeaderOk (s.bench b).t0 (vecAt b w s) = false →
      ∃ t, exec (.encode b) s = .next t ∧ Faulted b g o 0x07 (s.bench b).vec.launchPc s t))

/-- ROUTE_POST without its remote bit puts lanes 1 and 0 of src_a as one word at the end of the bench's own route
queue, while that queue and the words on their way to it are fewer than 64 (that those count is the model's
choice, notes/assumptions/104.md), and while they are 64 the unit holds the word; with the remote bit it sends
the word towards the logical bench of its program that lane 2 names, and a post to a bench that has ENDED is
discarded and counted; a lane 2 that names no bench of the program ends the execution with fault 0x10. CR_SET
puts lane 0 of src_a, read as I32 and clamped to 0 to 65,535, into the count register that imm names. NOP does
nothing but go on. (Rests on parts of R120, R124, R150, R151, R152, Table 5.7.) -/
def Obligations.VectorRoutesAndCounts : Prop :=
  (∀ b w q s, Pre.vec b 0x38 w s → w.srcC = 0 → q = (s.bench b).seq → (q.st = .running ∨ q.st = .waiting) →
    q.routeQueue.length + q.routeInbox.length < 64 → ∃ t, exec (.routePost b) s = .next t ∧ OneBench b s t ∧
      (t.bench b).seq.routeQueue = q.routeQueue ++ [BitVec.ofNat 64
        ((((s.bench b).vec.lanes w.srcA).getD 1 0).toNat * 2 ^ 32 + (((s.bench b).vec.lanes w.srcA).getD 0 0).toNat)] ∧
      (t.bench b).routePosted = (s.bench b).routePosted + 1 ∧ (t.bench b).vec.vpc = (s.bench b).vec.vpc + 1 ∧
      (t.bench b).vec.regs = (s.bench b).vec.regs ∧ (t.bench b).t0 = (s.bench b).t0) ∧
  (∀ b w q s, Pre.vec b 0x38 w s → w.srcC = 0 → q = (s.bench b).seq → (q.st = .running ∨ q.st = .waiting) →
    64 ≤ q.routeQueue.length + q.routeInbox.length → exec (.routePost b) s = .next s) ∧
  (∀ b d w g q s, Pre.vec b 0x38 w s → w.srcC = 1 → (s.bench b).bind = some g →
    s.benchOfLogical g.prog (((s.bench b).vec.lanes w.srcA).getD 2 0).toNat = some d → d ≠ b → q = (s.bench d).seq →
    (q.st = .running ∨ q.st = .waiting) → q.routeQueue.length + q.routeInbox.length < 64 →
    ∃ t, exec (.routePost b) s = .next t ∧ BenchOnly s t ∧ (t.bench d).seq.routeQueue = q.routeQueue ∧
      (t.bench d).seq.routeInbox = q.routeInbox ++ [(BitVec.ofNat 64
        ((((s.bench b).vec.lanes w.srcA).getD 1 0).toNat * 2 ^ 32 + (((s.bench b).vec.lanes w.srcA).getD 0 0).toNat), b)] ∧
      (t.bench b).vec.vpc = (s.bench b).vec.vpc + 1 ∧ (∀ x, x ≠ b → x ≠ d → t.bench x = s.bench x)) ∧
  (∀ b d w g s, Pre.vec b 0x38 w s → w.srcC = 1 → (s.bench b).bind = some g →
    s.benchOfLogical g.prog (((s.bench b).vec.lanes w.srcA).getD 2 0).toNat = some d → (s.bench d).seq.st = .ended →
    ∃ t, exec (.routePost b) s = .next t ∧ OneBench b s t ∧
      (t.bench b).routeDiscarded = (s.bench b).routeDiscarded + 1 ∧
      (t.bench b).seq.routeQueue = (s.bench b).seq.routeQueue ∧ (t.bench b).vec.vpc = (s.bench b).vec.vpc + 1) ∧
  (∀ b w g o s, Pre.vec b 0x38 w s → w.srcC = 1 → Pre.execution b g o s →
    s.benchOfLogical g.prog (((s.bench b).vec.lanes w.srcA).getD 2 0).toNat = none →
    ∃ t, exec (.routePost b) s = .next t ∧ Faulted b g o 0x10 (s.bench b).vec.launchPc s t) ∧
  (∀ b w s, Pre.vec b 0x39 w s → (s.bench b).seq.countRegs.length = 4 → ∃ t, exec (.crSet b) s = .next t ∧
    (t.bench b).seq.countRegs.getD (w.imm % 4) 0 =
      (clampInt 0 65535 (((s.bench b).vec.lanes w.srcA).headD 0).toInt).toNat ∧
    (∀ i, i ≠ w.imm % 4 → (t.bench b).seq.countRegs.getD i 0 = (s.bench b).seq.countRegs.getD i 0) ∧
    (t.bench b).vec.regs = (s.bench b).vec.regs ∧ (t.bench b).vec.vpc = (s.bench b).vec.vpc + 1 ∧ OneBench b s t) ∧
  (∀ b w s, Pre.vec b 0x3F w s → ∃ t, exec (.nop b) s = .next t ∧ VecFrame b w s t ∧
    (t.bench b).vec.regs = (s.bench b).vec.regs ∧ (t.bench b).t0 = (s.bench b).t0)

/-- Every row of the opcode table that issues a vector word. -/
def vectorRows (b : Nat) : List Instr :=
  [.ld b, .st b, .add b, .sub b, .mul b, .fma b, .max b, .min b, .cmplt b, .sel b, .div b, .sqrt b, .rsqrt b, .exp b,
   .cvt b, .rsum b, .rmax b, .rmin b, .quant b, .encode b, .routePost b, .crSet b, .nop b]

/-- For each of the 23 vector rows: when the next word of the running kernel is not a valid word of Table 5.5 (an
unknown opcode, an invalid format for its opcode or a reserved field set), the execution ends with fault 0x10
at the step that launched the kernel. (Rests on parts of R82, R136, R137, R150, R471.) -/
def Obligations.InvalidVectorWordFaults : Prop :=
  ∀ b g o s i, i ∈ vectorRows b → Pre.execution b g o s → (s.bench b).vec.running = true → s.benchAwake b = true →
    (s.bench b).nextWord.valid = false →
    ∃ t, exec i s = .next t ∧ Faulted b g o 0x10 (s.bench b).vec.launchPc s t

/-- Array `a` of bench `b` is the only thing that a command on it changes. -/
structure OneArray (b a : Nat) (s t : State) : Prop where
  one : OneBench b s t
  others : ∀ x, x ≠ a → t.arr b x = s.arr b x
  seq : (t.bench b).seq = (s.bench b).seq
  vec : (t.bench b).vec = (s.bench b).vec
  walker : (t.bench b).walker = (s.bench b).walker

/-- The value that column `n` of row `t` of an activation tile at `addr` gives with the tile `w` (R72, R75). -/
abbrev columnOf (w : TileRegs) (m : Mem) (addr t fmt n : Nat) : Int := w.column n (rowDiffs m addr t fmt)

/-- ARRAY_LOAD of the load at the head of an array's queue, from T0, with no load running, takes the operation off
the queue and begins to move the tile: its header from the array's header buffer where the buffer has taken
it, else from the image, where it passes the check; a header that fails ends the execution with fault 0x07.
Where the head is a stream of another logical array, the tile that it names is loaded again and the stream
stays in the queue. LOAD_LATCH of a running load makes that tile the array's and its logical array the owner
of its codes, and counts the load's 256 cycles and its wait. The accumulator banks keep their contents, and
nothing else changes. (Rests on parts of R62, R64, R90, R91, R143.) -/
def Obligations.ArrayLoads : Prop :=
  (∀ b a l addr pc hd rest s, (s.arr b a).load = none → s.benchAwake b = true →
    (s.arr b a).queue = .load l addr true pc hd :: rest →
    (hd = none → tileHeaderOk (s.bench b).t0 addr = true) →
    addr + imageBytes ((hd.getD (s.bench b).t0).getLe (addr + 4) 1) ≤ 0x800000 → s.mgmt.planted = [] →
    ∃ t, exec (.arrayLoad b a) s = .next t ∧ (t.arr b a).queue = rest ∧
      (t.arr b a).load = some { tile := tileOf (hd.getD (s.bench b).t0) (s.bench b).t0 addr, logical := l, reload := false } ∧
      (t.arr b a).tile = (s.arr b a).tile ∧ (t.arr b a).banks = (s.arr b a).banks ∧
      (t.bench b).t0 = (s.bench b).t0 ∧ OneArray b a s t) ∧
  (∀ b a l ad bank f acc n fmt noAdd addr pc rest s, (s.arr b a).load = none → s.benchAwake b = true →
    (s.arr b a).queue = .stream l ad bank f acc n fmt noAdd (some (addr, true)) pc :: rest →
    (s.arr b a).owner ≠ some l → tileHeaderOk (s.bench b).t0 addr = true →
    addr + imageBytes ((s.bench b).t0.getLe (addr + 4) 1) ≤ 0x800000 → s.mgmt.planted = [] →
    ∃ t, exec (.arrayLoad b a) s = .next t ∧ (t.arr b a).queue = (s.arr b a).queue ∧
      (t.arr b a).load = some { tile := tileOf (s.bench b).t0 (s.bench b).t0 addr, logical := l, reload := true } ∧
      (t.arr b a).tile = (s.arr b a).tile ∧ (t.arr b a).banks = (s.arr b a).banks ∧
      (t.bench b).t0 = (s.bench b).t0 ∧ OneArray b a s t) ∧
  (∀ b a l addr pc rest g o s, (s.arr b a).load = none → s.benchAwake b = true → Pre.execution b g o s →
    (s.arr b a).queue = .load l addr true pc none :: rest → tileHeaderOk (s.bench b).t0 addr = false →
    addr + 1088 ≤ 0x800000 → s.mgmt.planted = [] →
    ∃ t, exec (.arrayLoad b a) s = .next t ∧ Faulted b g o 0x07 pc s t) ∧
  (∀ b a wait r s, (s.arr b a).load = some r → s.benchAwake b = true →
    ∃ t, exec (.loadLatch b a wait) s = .next t ∧ (t.arr b a).tile = r.tile ∧
      (t.arr b a).owner = some r.logical ∧ (t.arr b a).load = none ∧
      (t.arr b a).loadCyc = (s.arr b a).loadCyc + BitVec.ofNat 64 (256 + wait) ∧
      (t.arr b a).banks = (s.arr b a).banks ∧ (t.arr b a).queue = (s.arr b a).queue ∧ OneArray b a s t)

/-- ARRAY_STREAM of the stream at the head of an array's queue, once no load runs, the array holds its logical
array's codes and its bank is not drained, and with an activation tile, descriptors and latches that pass
every check: takes the operation off the queue; for every row of the stream each column's accumulator gains
the column sum of the row with the tile, modulo 2^32, or takes it alone in no-add mode, and every other
accumulator keeps its value; the row's token scale and, at the bank's first tile, the channel scales are
latched, and the bank's tile count rises by one. STREAM_END takes the oldest running stream away. (Rests on
parts of R69, R72, R75, R97, R98, R99, R100, R102.) -/
def Obligations.ArrayStreams : Prop :=
  (∀ b a l addr bank f acc n fmt noAdd tl pc rest w s, (s.arr b a).queue =
      .stream l addr bank f acc n fmt noAdd tl pc :: rest → (s.arr b a).tile = w → (s.arr b a).load = none →
    (s.arr b a).owner = some l → (s.arr b a).drain ≠ some bank → s.benchAwake b = true → s.mgmt.planted = [] →
    addr + 0x900 + 256 * f + 256 * (n + 255) ≤ 0x800000 → actHeaderOk (s.bench b).t0 addr f n acc fmt = true →
    (∀ c, (tget {} (s.arr b a).banks bank).chan = some c → c = (w.scales, w.nCount)) →
    (tget {} (s.arr b a).banks bank).tiles < 256 → badRow (s.bench b).t0 addr f n fmt = none →
    (noAdd = true ∨ badScale (tget {} (s.arr b a).banks bank) (s.bench b).t0 addr f acc n = none) →
    ∃ t, exec (.arrayStream b a true) s = .next t ∧ (t.arr b a).queue = rest ∧
      (t.arr b a).rows = (s.arr b a).rows + BitVec.ofNat 64 n ∧ (t.bench b).t0 = (s.bench b).t0 ∧
      (tget {} (t.arr b a).banks bank).tiles = (tget {} (s.arr b a).banks bank).tiles + 1 ∧
      (tget {} (t.arr b a).banks bank).chan = some (w.scales, w.nCount) ∧
      (∀ j, j < n → tget 0 (tget {} (t.arr b a).banks bank).tokScale (acc + j) =
        (s.bench b).t0.word (rowDesc addr (f + j))) ∧
      (∀ j c, j < n → c < 256 → tget 0 (tget {} (t.arr b a).banks bank).acc (256 * (acc + j) + c) =
        (if noAdd then 0 else tget 0 (tget {} (s.arr b a).banks bank).acc (256 * (acc + j) + c)) +
          BitVec.ofInt 32 (columnOf w (s.bench b).t0 addr (f + j) fmt c)) ∧
      (∀ i, (i < 256 * acc ∨ 256 * (acc + n) ≤ i) → tget 0 (tget {} (t.arr b a).banks bank).acc i =
        tget 0 (tget {} (s.arr b a).banks bank).acc i) ∧
      (∀ k, k ≠ bank → tget {} (t.arr b a).banks k = tget {} (s.arr b a).banks k) ∧ OneArray b a s t) ∧
  (∀ b a s, s.benchAwake b = true → (s.arr b a).streams ≠ [] →
    ∃ t, exec (.streamEnd b a) s = .next t ∧ (t.arr b a).streams = (s.arr b a).streams.drop 1 ∧
      (t.arr b a).banks = (s.arr b a).banks ∧ (t.arr b a).queue = (s.arr b a).queue ∧ OneArray b a s t)

/-- A stream whose activation tile fails the header check, or one of whose rows fails the descriptor check, ends
the execution with fault 0x08; channel scales, or with adding token scales, that differ from the bank's
latches end it with fault 0x09; a bank that holds 256 tiles ends it with fault 0x0A. The checks come in the
order header, channel scales, tile count, rows, token scales. None of them changes an accumulator bank of that
array before the execution's end. (Rests on parts of R69, R89, R97, R99.) -/
def Obligations.StreamChecks : Prop :=
  ∀ b a l addr bank f acc n fmt noAdd tl pc rest w g o s, (s.arr b a).queue =
      .stream l addr bank f acc n fmt noAdd tl pc :: rest → (s.arr b a).tile = w → (s.arr b a).load = none →
    (s.arr b a).owner = some l → (s.arr b a).drain ≠ some bank → s.benchAwake b = true → s.mgmt.planted = [] →
    addr + 0x900 + 256 * f + 256 * (n + 255) ≤ 0x800000 → Pre.execution b g o s →
    (actHeaderOk (s.bench b).t0 addr f n acc fmt = false →
      ∃ t, exec (.arrayStream b a true) s = .next t ∧ Faulted b g o 0x08 pc s t ∧
        (t.arr b a).banks = (s.arr b a).banks) ∧
    (actHeaderOk (s.bench b).t0 addr f n acc fmt = true → ∀ c, (tget {} (s.arr b a).banks bank).chan = some c →
      c ≠ (w.scales, w.nCount) → ∃ t, exec (.arrayStream b a true) s = .next t ∧ Faulted b g o 0x09 pc s t ∧
        (t.arr b a).banks = (s.arr b a).banks) ∧
    (actHeaderOk (s.bench b).t0 addr f n acc fmt = true →
      (∀ c, (tget {} (s.arr b a).banks bank).chan = some c → c = (w.scales, w.nCount)) →
      256 ≤ (tget {} (s.arr b a).banks bank).tiles → ∃ t, exec (.arrayStream b a true) s = .next t ∧
        Faulted b g o 0x0A pc s t ∧ (t.arr b a).banks = (s.arr b a).banks) ∧
    (actHeaderOk (s.bench b).t0 addr f n acc fmt = true →
      (∀ c, (tget {} (s.arr b a).banks bank).chan = some c → c = (w.scales, w.nCount)) →
      (tget {} (s.arr b a).banks bank).tiles < 256 → badRow (s.bench b).t0 addr f n fmt ≠ none →
      ∃ t, exec (.arrayStream b a true) s = .next t ∧ Faulted b g o 0x08 pc s t ∧
        (t.arr b a).banks = (s.arr b a).banks) ∧
    (actHeaderOk (s.bench b).t0 addr f n acc fmt = true →
      (∀ c, (tget {} (s.arr b a).banks bank).chan = some c → c = (w.scales, w.nCount)) →
      (tget {} (s.arr b a).banks bank).tiles < 256 → badRow (s.bench b).t0 addr f n fmt = none → noAdd = false →
      badScale (tget {} (s.arr b a).banks bank) (s.bench b).t0 addr f acc n ≠ none →
      ∃ t, exec (.arrayStream b a true) s = .next t ∧ Faulted b g o 0x09 pc s t ∧
        (t.arr b a).banks = (s.arr b a).banks)

/-- ARRAY_DRAIN of a drain into I32 at the head of an array's queue, with no bias, no other drain and no stream
into its bank running, and a parameter block and rows that pass the checks, takes the operation off the queue
and writes, for every row and every column that the mask keeps and n_count includes, the accumulator as it is,
four bytes at out + (256 i + c) × 4; every other byte of T0 keeps its value, and so do the accumulators.
DRAIN_END zeroes the bank, its latches and its tile count. A drained value in I32 is the accumulator; in FP32,
with scales s_t and s_c, it is fma(fp32(acc), s_t × s_c, bias). (Rests on parts of R78, R79, R81, R101, R102,
R147.) -/
def Obligations.ArrayDrains : Prop :=
  (∀ b a l block out bank f n pc rest s, (s.arr b a).queue = .drain l block out bank f n 5 pc :: rest →
    (∀ r ∈ (s.arr b a).streams, r.bank ≠ bank) → (s.arr b a).drain = none → s.benchAwake b = true →
    s.mgmt.planted = [] → s.mgmt.eccArm = false → block + 64 ≤ 0x800000 → out + 1024 * n ≤ 0x800000 →
    drainBlockOk (s.bench b).t0 block 5 = true → f + n ≤ 256 →
    (drainBlockAt (s.bench b).t0 block).bias = false →
    ∃ t, exec (.arrayDrain b a) s = .next t ∧ (t.arr b a).queue = rest ∧ (t.arr b a).drain = some bank ∧
      (t.arr b a).banks = (s.arr b a).banks ∧
      (∀ i c j, i < n → c < 256 → j < 4 → (t.bench b).t0.get (out + (256 * i + c) * 4 + j) =
        if (drainBlockAt (s.bench b).t0 block).mask.getD c false = true ∧
            c < (((tget {} (s.arr b a).banks bank).chan.map (·.2)).getD 256) then
          BitVec.ofNat 8 ((tget 0 (tget {} (s.arr b a).banks bank).acc (256 * (f + i) + c)).toNat / 256 ^ j)
        else (s.bench b).t0.get (out + (256 * i + c) * 4 + j)) ∧
      (∀ x, (x < out ∨ out + 1024 * n ≤ x) → (t.bench b).t0.get x = (s.bench b).t0.get x) ∧ OneArray b a s t) ∧
  (∀ b a bank s, (s.arr b a).drain = some bank → s.benchAwake b = true →
    ∃ t, exec (.drainEnd b a) s = .next t ∧ (t.arr b a).drain = none ∧ tget {} (t.arr b a).banks bank = {} ∧
      (∀ k, k ≠ bank → tget {} (t.arr b a).banks k = tget {} (s.arr b a).banks k) ∧
      (t.arr b a).queue = (s.arr b a).queue ∧ (t.bench b).t0 = (s.bench b).t0 ∧ OneArray b a s t) ∧
  (∀ (ro : Word) (zo : Nat) (bias acc : Word) (sc : Option (Word × Word)),
    (drainValue 5 ro zo bias sc acc).bits = acc.toNat) ∧
  (∀ (ro : Word) (zo : Nat) (bias acc st sn : Word), (drainValue 4 ro zo bias (some (st, sn)) acc).bits =
    (Fp.fma (Fp.ofInt acc.toInt) (Fp.mul st sn).bits bias).bits.toNat)

/-- For a live row of a tile in I4S or I8S, the sum over the passes of the table entries that the code's digits
select is the signed code times the difference; in Q2P and Q4P it is the codebook entry times the difference.
A row outside k_count or in an absent block contributes nothing. (Rests on parts of R66, R72, R88, Table 3.2,
Table 3.5.) -/
def Obligations.TilePasses : Prop :=
  (∀ (t : TileRegs) (k n : Nat) (d : Int), t.rowLive k = true → t.format = 3 →
    t.product k n d = signed 4 (t.code k n) * d) ∧
  (∀ (t : TileRegs) (k n : Nat) (d : Int), t.rowLive k = true → t.format = 4 →
    t.product k n d = signed 8 (t.code k n) * d) ∧
  (∀ (t : TileRegs) (k n : Nat) (d : Int), t.rowLive k = true → (t.format = 1 ∨ t.format = 2) →
    t.product k n d = t.codebook.getD (t.code k n) 0 * d) ∧
  (∀ (t : TileRegs) (k n : Nat) (d : Int), (t.kCount ≤ k ∨ bitOf t.blockPresent (k / 64) = false) →
    t.product k n d = 0)

/-- The step at which bench `b` stands, once it is counted and its loads and raises are done (R118). -/
abbrev stepBegun (b : Nat) (g : Binding) (s : State) : State :=
  (((s.modSeq b fun q => { q with skipTested := true }).modBench b fun y => { y with
    gate := { y.gate with fired := false } }).modBench b fun x => { x with seqSteps := x.seqSteps + 1 }).loadAndRaise b
      (s.bench b).step g

/-- When a step with walk_launch issues on a bench whose walker has been retired, and neither its array action nor
its vector launch has ended the execution before, the execution ends with fault 0x11 at that step; and a
launch that the walker has not begun when it is retired ends the execution with fault 0x11 at the step that
launched it. (R239.) -/
def Obligations.RetiredWalkerFaults : Prop :=
  (∀ b g o s1 s2 s, Pre.issues b g s → Pre.execution b g o s → (s.bench b).step.walkLaunch = true →
    (s.bench b).walker.retired = true → (stepBegun b g s).issueArray b (s.bench b).step g = .ok s1 →
    s1.issueVector b (s.bench b).step = .ok s2 →
    ∃ t, exec (.sequencerStep b) s = .next t ∧ Faulted b g o 0x11 (s.bench b).seq.pc s t) ∧
  (∀ b g o a sp pc s, (s.bench b).walker.launch = some (a, sp, pc) → (s.bench b).walker.retired = true →
    s.benchAwake b = true → Pre.execution b g o s →
    ∃ t, exec (.walkerSearch b) s = .next t ∧ Faulted b g o 0x11 pc s t)

/-- The walker of bench `b` runs search `v` of lode `l`, of which query `j` is `q` and has not stopped. -/
abbrev Pre.walking (b j : Nat) (v : Search) (q : Query) (s : State) : Prop :=
  (s.bench b).walker.search = some v ∧ v.queries[j]? = some q ∧ q.stopped = false ∧ s.benchAwake b = true

/-- Bench `b` works for function `fn` under a program without a hoist list. -/
abbrev Pre.unhoisted (b fn : Nat) (s : State) : Prop := s.benchFn b = fn ∧ (s.prog (s.benchProg b)).hoist = none

/-- Query `q` after it has visited node `n` at distance `d` in an exhaustive search. -/
def nodeVisited (q : Query) (v : Search) (d : Int) (n : Nat) : Query :=
  { (({ q with visits := q.visits + 1 } : Query).insertR v.k d n).1 with nextNode := n + 1, inFlight := [] }

/-- The search of bench `b` has ended the execution with status `st` for cause `cause` (R241, Table 10.7). -/
structure SearchEnded (b : Nat) (g : Binding) (o : Op) (st : Status) (cause pc : Nat) (s t : State) : Prop where
  posted : Posts s t { src := o.src, status := st, dw0 := faultDword 0 g.logical pc }
  ops : t.host.ops = []
  idle : (t.prog g.prog).running = none
  cause : (t.bench b).walker.lastCause = cause
  search : (t.bench b).walker.search = none
  mem : t.ts.mem = s.ts.mem
  map : t.flash.map = s.flash.map

/-- A descriptor in T0 that breaks its checks ends the execution with fault 0x11; a valid exhaustive descriptor
without a filter, on a served lode whose header is sound and of the generation named, starts a search of its
queries. An expansion of an exhaustive query without a filter or tombstones visits its next node: the exact
distance of R235 is offered to the result list, and with the last node the query stops for reason 4 and its
result block is written, which ends the search when no other query runs; at max_visits it stops for reason 2.
A greedy query of a lode on flash takes its nearest candidate and asks for its page. A page that arrives sound
is put into its slot of the page buffer and its read is over; one that cannot be read ends the execution with
Unrecovered Read Error, cause 5, and one that fails the page checks with Record Format Error, cause 3. (Rests
on parts of R234, R241, R242, R243, R245, R249, R250, R253.) -/
def Obligations.WalkerSearches : Prop :=
  (∀ b g o a pc s, (s.bench b).walker.launch = some (a, 1, pc) → (s.bench b).walker.retired = false →
    s.benchAwake b = true → Pre.execution b g o s → a + 128 ≤ 0x800000 → s.mgmt.planted = [] →
    searchOk (s.bench b).t0 a = false →
    ∃ t, exec (.walkerSearch b) s = .next t ∧ Faulted b g o 0x11 pc s t ∧ (t.bench b).walker.lastCause = 1) ∧
  (∀ b fn a pc v l s, (s.bench b).walker.launch = some (a, 1, pc) → (s.bench b).walker.retired = false →
    s.benchAwake b = true → a + 128 ≤ 0x800000 → s.mgmt.planted = [] → searchOk (s.bench b).t0 a = true →
    v = searchOf (s.bench b).t0 a pc → v.useFilter = false → v.exhaustive = true → Pre.unhoisted b fn s →
    Pre.served fn v.lode 1024 s → l = lodeOf (Mem.copyIn [] 0 s.ts.mem v.lode 1024) → l.ok = true → v.fits l = true →
    l.generation = v.generation.toNat →
    ∃ t w, exec (.walkerSearch b) s = .next t ∧ (t.bench b).walker.search = some w ∧
      (t.bench b).walker.launch = none ∧ w.header = l.raw ∧ w.queries = List.replicate v.queries.length {} ∧
      (t.bench b).t0 = (s.bench b).t0 ∧ t.ts.mem = s.ts.mem ∧ t.host = s.host ∧ t.flash = s.flash) ∧
  (∀ b j fn v q l d s, Pre.walking b j v q s → v.exhaustive = true → v.useFilter = false → l = lodeOf v.header →
    l.tomb = 0 → q.visits < v.maxVisits → v.queryAddr + j * l.dim + l.dim ≤ 0x800000 → s.mgmt.planted = [] →
    Pre.unhoisted b fn s → Pre.served fn (l.vector q.nextNode) l.dim s →
    d = distance l.metric l.dim (s.bench b).t0 (v.queryAddr + j * l.dim) s.ts.mem (l.vector q.nextNode) →
    (q.nextNode + 1 < l.nodes → ∃ t w, exec (.walkerExpansion b j) s = .next t ∧
      (t.bench b).walker.search = some w ∧ w.queries[j]? = some (nodeVisited q v d q.nextNode) ∧
      (∀ i, i ≠ j → w.queries[i]? = v.queries[i]?) ∧ (t.bench b).t0 = (s.bench b).t0 ∧
      (t.bench b).walker.visits = (s.bench b).walker.visits + 1 ∧ t.ts.mem = s.ts.mem ∧ t.host = s.host) ∧
    (l.nodes ≤ q.nextNode + 1 → s.mgmt.eccArm = false → ∀ w : Query,
      w = { nodeVisited q v d q.nextNode with stopped := true, stopReason := 4 } →
      v.resultAddr + j * resultStride v.k + (w.block v).length ≤ 0x800000 →
      ∃ t, exec (.walkerExpansion b j) s = .next t ∧
        StoredT0 b (v.resultAddr + j * resultStride v.k) (w.block v) s t ∧ t.ts.mem = s.ts.mem ∧ t.host = s.host ∧
        ((∀ i u, i ≠ j → v.queries[i]? = some u → u.stopped = true) → (t.bench b).walker.search = none))) ∧
  (∀ b j v q s, Pre.walking b j v q s → v.exhaustive = true → v.maxVisits ≤ q.visits → s.mgmt.planted = [] →
    s.mgmt.eccArm = false → ∀ w : Query, w = { q with stopped := true, stopReason := 2, inFlight := [] } →
    v.resultAddr + j * resultStride v.k + (w.block v).length ≤ 0x800000 →
    ∃ t, exec (.walkerExpansion b j) s = .next t ∧ t.ts = s.ts ∧ t.host = s.host ∧
      StoredT0 b (v.resultAddr + j * resultStride v.k) (w.block v) s t) ∧
  (∀ b j v q c i l s, Pre.walking b j v q s → v.exhaustive = false → q.inFlight = [] → 1 ≤ v.inflight →
    q.nearest = some c → l = lodeOf v.header → l.base ≠ 1 → v.slotOf (l.pageOf c.node) = none →
    v.reading.length < 16 → v.freeSlot l = some i →
    ∃ t w u, exec (.walkerExpansion b j) s = .next t ∧ (t.bench b).walker.search = some w ∧
      w.reading = v.reading ++ [l.pageOf c.node] ∧ tget (0, 0) w.slots i = (l.pageOf c.node, v.useClock) ∧
      w.queries[j]? = some u ∧ u.inFlight = [(c.dist, c.node)] ∧ u.pagesRead = q.pagesRead + 1 ∧
      (∀ y ∈ u.q, y.node = c.node → y.expanded = true) ∧ OneBench b s t) ∧
  (∀ b p v l g o s, (s.bench b).walker.search = some v → v.reading.contains p = true → s.benchAwake b = true →
    l = lodeOf v.header → Pre.execution b g o s →
    (∃ t, exec (.walkerPageReadDone b p false) s = .next t ∧ SearchEnded b g o .unrecoveredRead 5 v.pc s t) ∧
    (s.anyMarked l.nsid (l.lba + 4 * p) 4 = false → s.lbaCheck (s.benchFn b) l.nsid (l.lba + 4 * p) 4 = .success →
      (pageOk (s.readBlocks l.nsid (l.lba + 4 * p) 4) l p = false →
        ∃ t, exec (.walkerPageReadDone b p true) s = .next t ∧ SearchEnded b g o (.vendor 0xC4) 3 v.pc s t) ∧
      (pageOk (s.readBlocks l.nsid (l.lba + 4 * p) 4) l p = true →
        (s.readBlocks l.nsid (l.lba + 4 * p) 4).getLe 8 8 = l.generation → s.mgmt.planted = [] → s.mgmt.eccArm = false →
        ∃ t w, exec (.walkerPageReadDone b p true) s = .next t ∧ (t.bench b).walker.search = some w ∧
          w.reading = (v.reading.filter fun x => x != p) ∧ w.queries = v.queries ∧
          (t.bench b).t0 = (s.bench b).t0.copyIn (v.pageBuf + (v.slotOf p).getD 0 * 16384)
            (s.readBlocks l.nsid (l.lba + 4 * p) 4) 0 16384 ∧ t.ts = s.ts ∧ t.host = s.host ∧
          t.flash.map = s.flash.map)))

/-- insert_r and insert_q keep their lists in ascending distance and never let them grow past k and ef; a result
that is not nearer than the farthest of a full list is not inserted, and one that is inserted, in place of the
farthest where the list is full, comes behind every result at the same distance. (Rests on parts of R244,
R242.) -/
def Obligations.WalkerResultsStayOrdered : Prop :=
  ∀ (q : Query) (k ef n : Nat) (d : Int), 1 ≤ k → 1 ≤ ef → q.r.length ≤ k → q.q.length ≤ ef →
    q.r.Pairwise (fun a b => a.1 ≤ b.1) → q.q.Pairwise (fun a b => a.dist ≤ b.dist) →
    (q.insertR k d n).1.r.Pairwise (fun a b => a.1 ≤ b.1) ∧ (q.insertR k d n).1.r.length ≤ k ∧
    (q.insertQ ef d n).1.q.Pairwise (fun a b => a.dist ≤ b.dist) ∧ (q.insertQ ef d n).1.q.length ≤ ef ∧
    ((q.insertR k d n).2 = true ↔ q.r.length < k ∨ ∀ x, q.r.getLast? = some x → d < x.1) ∧
    ((q.insertR k d n).2 = true → ∃ l m, (q.insertR k d n).1.r = l ++ (d, n) :: m ∧
      l ++ m = (if q.r.length < k then q.r else q.r.dropLast) ∧ (∀ x ∈ l, x.1 ≤ d) ∧ ∀ x ∈ m, d < x.1) ∧
    ((q.insertR k d n).2 = false → (q.insertR k d n).1 = q)

/-- The engine of region `r` grants request `q` of channel `c` first; its line is `x`. -/
abbrev Pre.grants (r c : Nat) (q : Req) (x : LineDesc) (s : State) : Prop :=
  (s.region r).st = .active ∧ (s.region r).haul.stopped = false ∧ (s.region r).haul.order.head? = some (c, q) ∧
    lineDescOk (tget {} (s.region r).haul.lines q.line).desc = true ∧
    x = lineDescOf (tget {} (s.region r).haul.lines q.line).desc

/-- What a burst inside T0 leaves: of the benches only `b` has changed, of the regions only `r`. -/
structure BurstFrame (r b : Nat) (s t : State) : Prop where
  benches : ∀ y, y ≠ b → t.bench y = s.bench y
  regions : ∀ y, y ≠ r → t.region y = s.region y
  reqs : (t.region r).haul.reqs = (s.region r).haul.reqs
  host : t.host = s.host
  ts : t.ts = s.ts
  flash : t.flash = s.flash
  mgmt : t.mgmt = s.mgmt
  fabric : t.fabric = s.fabric

/-- BURST_GRANT with the request at the head of the arbitration order: a copy between two ranges of T0 that lie in
the space, are aligned to 64 bytes and do not overlap copies its bytes and notes the request as done; row 0 of
a plain list in T0 fills the tile's header, puts its 256 codes on the diagonal and its descriptor in place and
zeroes every other byte of the lines, and row r above 0 puts its codes and its descriptor into the tile and
changes no other byte; a descriptor that breaks Table 8.2 stops the engine with code 0x01, and a copy whose
source is misaligned or lies outside its space (a negative address, or a range beyond T0) with code 0x03,
every channel disarmed and nothing moved. REQUEST_COMPLETE of a line whose oldest request is done, its burst
having crossed no die bridge, retires it, counts the burst and its bytes, and appends a row where the line
asked for it and a row was moved, while the row queue has room. (Rests on parts of R194, R196, R197, R199,
R201, R203, R205, R206.) -/
def Obligations.HaulBursts : Prop :=
  (∀ r c q x (a d : Nat) s, Pre.grants r c q x s → x.mode = 1 → x.srcSpace = 1 → x.dstSpace = 1 →
    x.src (s.benchParams q.bench) q.loopIdx q.index = (a : Int) →
    x.dst (s.benchParams q.bench) q.loopIdx q.index = (d : Int) → a % 64 = 0 → d % 64 = 0 →
    a + x.burst ≤ 0x800000 → d + x.burst ≤ 0x800000 → (a + x.burst ≤ d ∨ d + x.burst ≤ a) →
    s.mgmt.planted = [] → s.mgmt.eccArm = false →
    ∃ t, exec (.burstGrant r) s = .next t ∧
      (t.bench q.bench).t0 = (s.bench q.bench).t0.copyIn d (s.bench q.bench).t0 a x.burst ∧
      (t.region r).haul.done = (s.region r).haul.done ++ [{ order := q.order, burst := .copy x.burst, dst := d
                                                            append := false }] ∧
      (t.region r).haul.lastChannel = c ∧ BurstFrame r q.bench s t) ∧
  (∀ r c q x (a d : Nat) s, Pre.grants r c q x s → x.mode = 2 → x.srcSpace = 1 → x.dstSpace = 1 → q.index = 0 →
    x.src (s.benchParams q.bench) q.loopIdx q.index = (a : Int) →
    x.dst (s.benchParams q.bench) q.loopIdx q.index = (d : Int) → d % 64 = 0 → a + 264 ≤ 0x800000 →
    d + actTileBytes x.rep ≤ 0x800000 → s.mgmt.planted = [] → s.mgmt.eccArm = false →
    ∃ t, exec (.burstGrant r) s = .next t ∧
      (t.bench q.bench).t0.getLe d 4 = 0xAC715EED ∧
      (t.bench q.bench).t0.getLe (d + 4) 1 = (s.bench q.bench).t0.getLe (a + 261) 1 ∧
      (t.bench q.bench).t0.getLe (d + 6) 2 = x.rep ∧ (t.bench q.bench).t0.getLe (d + 8) 2 = x.rep + 255 ∧
      (∀ k, k < 256 → (t.bench q.bench).t0.get (element d 0 k) = (s.bench q.bench).t0.get (a + k)) ∧
      (∀ i, i < 8 → (t.bench q.bench).t0.get (rowDesc d 0 + i) = (s.bench q.bench).t0.get (a + 256 + i)) ∧
      (∀ y, d + 0x900 ≤ y → y < d + actTileBytes x.rep → (∀ k, k < 256 → y ≠ element d 0 k) →
        (t.bench q.bench).t0.get y = 0) ∧
      (∀ y, (y < d ∨ d + actTileBytes x.rep ≤ y) → (t.bench q.bench).t0.get y = (s.bench q.bench).t0.get y) ∧
      (t.region r).haul.done = (s.region r).haul.done ++ [{ order := q.order, burst := .row 0 0 x.rep, dst := d
                                                            append := x.append }] ∧
      BurstFrame r q.bench s t) ∧
  (∀ r c q x (a d : Nat) s, Pre.grants r c q x s → x.mode = 2 → x.srcSpace = 1 → x.dstSpace = 1 → 0 < q.index →
    q.index < x.rep → x.src (s.benchParams q.bench) q.loopIdx q.index = (a : Int) →
    x.dst (s.benchParams q.bench) q.loopIdx q.index = (d : Int) → d % 64 = 0 → a + 264 ≤ 0x800000 →
    d + actTileBytes x.rep ≤ 0x800000 → s.mgmt.planted = [] → s.mgmt.eccArm = false →
    ∃ t, exec (.burstGrant r) s = .next t ∧
      (∀ k, k < 256 → (t.bench q.bench).t0.get (element d q.index k) = (s.bench q.bench).t0.get (a + k)) ∧
      (∀ i, i < 8 → (t.bench q.bench).t0.get (rowDesc d q.index + i) = (s.bench q.bench).t0.get (a + 256 + i)) ∧
      (∀ y, (∀ k, k < 256 → y ≠ element d q.index k) → (∀ i, i < 8 → y ≠ rowDesc d q.index + i) →
        (t.bench q.bench).t0.get y = (s.bench q.bench).t0.get y) ∧
      (t.region r).haul.done = (s.region r).haul.done ++ [{ order := q.order, burst := .row q.index q.index x.rep
                                                            dst := d, append := x.append }] ∧
      BurstFrame r q.bench s t) ∧
  (∀ r c q rest s, (s.region r).st = .active → (s.region r).haul.stopped = false →
    (s.region r).haul.errValid = false → (s.region r).haul.order = (c, q) :: rest →
    (lineDescOk (tget {} (s.region r).haul.lines q.line).desc = false ∨
      (lineDescOk (tget {} (s.region r).haul.lines q.line).desc = true ∧
        (lineDescOf (tget {} (s.region r).haul.lines q.line).desc).mode = 1 ∧
        ∃ e, e = (lineDescOf (tget {} (s.region r).haul.lines q.line).desc).src (s.benchParams q.bench) q.loopIdx
          q.index ∧ (e % 64 ≠ 0 ∨ e < 0 ∨ ((lineDescOf (tget {} (s.region r).haul.lines q.line).desc).srcSpace = 1 ∧
            0x800000 < e + (lineDescOf (tget {} (s.region r).haul.lines q.line).desc).burst)))) →
    ∃ t, exec (.burstGrant r) s = .next t ∧ (t.region r).haul.stopped = true ∧ (t.region r).haul.armed = 0 ∧
      (t.region r).haul.errValid = true ∧ (t.region r).haul.stops = (s.region r).haul.stops + 1 ∧
      (t.region r).haul.err0.toNat % 256 =
        (if lineDescOk (tget {} (s.region r).haul.lines q.line).desc = false then 0x01 else 0x03) ∧
      (t.region r).haul.done = (s.region r).haul.done ∧ t.benches = s.benches ∧ t.ts = s.ts ∧
      t.mgmt.journalTotal = s.mgmt.journalTotal + 1 ∧ t.flash = s.flash) ∧
  (∀ r l q m s, ((s.region r).haul.reqs.find? fun y => y.line == l) = some q →
    ((s.region r).haul.done.find? fun y => y.order == q.order) = some m → (s.region r).st = .active →
    m.crossing = none → (m.append = true → m.burst ≠ .idle → (s.bench q.bench).gate.rows.length < 512) →
    ∃ t, exec (.requestComplete r l) s = .next t ∧
      (t.region r).haul.reqs = ((s.region r).haul.reqs.filter fun y => y.order != q.order) ∧
      (t.region r).haul.done = ((s.region r).haul.done.filter fun y => y.order != q.order) ∧
      (t.region r).haul.bursts = (s.region r).haul.bursts + 1 ∧
      (t.region r).haul.bytes = (s.region r).haul.bytes + BitVec.ofNat 64 m.burst.bytes ∧
      ((m.append = false ∨ m.burst = .idle) → t.benches = s.benches) ∧
      (m.append = true → m.burst ≠ .idle →
        (t.bench q.bench).gate.rows = (s.bench q.bench).gate.rows ++ [s.dieNow (benchDie q.bench)]) ∧
      t.host = s.host ∧ t.ts = s.ts ∧ t.flash = s.flash ∧ t.mgmt = s.mgmt)

/-- Function `fn` is a PF of a powered module, so its BAR0 answers. -/
abbrev Pre.bar (fn : Nat) (s : State) : Prop := isPf fn = true ∧ s.power.on = true ∧ s.hasFn fn = true

/-- Region `r` is awake and its register window is served at once. -/
abbrev Pre.window (r : Nat) (s : State) : Prop := r < 8 ∧ (s.region r).st = .active ∧ (s.region r).entering = 0

/-- Nothing but the answers to register accesses and region `r` has changed. -/
structure RegionOnly (r : Nat) (s t : State) : Prop where
  regions : ∀ y, y ≠ r → t.region y = s.region y
  st : (t.region r).st = (s.region r).st
  benches : t.benches = s.benches
  host : t.host = { s.host with regReplies := t.host.regReplies }
  ts : t.ts = s.ts
  flash : t.flash = s.flash
  fabric : t.fabric = s.fabric
  mgmt : t.mgmt = s.mgmt
  power : t.power = s.power

/-- One access has been answered with `v`. -/
abbrev Answers (offset : Nat) (isWrite : Bool) (v : DWord) (s t : State) : Prop :=
  t.host.regReplies = s.host.regReplies ++ [{ offset := offset, isWrite := isWrite, value := v }]

/-- Where the BN_ block of global bench `b` lies in BAR0 (R29). -/
def benchBase (b : Nat) : Nat := 0x1000000 * (b / 20 + 1) + 0x100000 * (b / 5 % 4 + 1) + 0x20000 * (b % 5 + 1)

/-- An access outside a function's BAR0, or not aligned to its size, stops as outsideBar0. Through a PF of a
powered module: outside the region and bench windows a 64-bit read answers the register and changes nothing
else; a reserved offset reads 0 and a write to it is answered and otherwise ignored. A 64-bit read of a
region's window: a region in RESET answers ones (64 of them: the model's choice, notes/assumptions/101.md) and
a retired one zero, and one asleep, with no thermal shutdown and no non-operational power state, begins to
wake and holds the access. A write to BN_ARITH_STAT of a bench in service of an awake region clears, of its
four condition bits, exactly those written as 1. The 32-bit read of a KCLK counter's low half latches the high
half, and the next 32-bit read of the high half returns the latched value. (Rests on parts of R6, R7, R28,
R29, R31, R86, R415.) -/
def Obligations.RegisterAccesses : Prop :=
  (∀ fn offset wide value s, accessOk fn offset wide = false →
    exec (.registerWrite fn offset wide value) s = .fault .outsideBar0 ∧
    ∀ w, exec (.windowAccess fn offset wide w value) s = .fault .outsideBar0) ∧
  (∀ fn offset v s, Pre.bar fn s → accessOk fn offset true = true → (∀ r o, placeOf offset ≠ .rg r o) →
    (∀ b o, placeOf offset ≠ .bn b o) →
    exec (.windowAccess fn offset true false v) s = .next (s.modHost fun h => { h with
      regReplies := h.regReplies ++ [{ offset := offset, isWrite := false, value := BitVec.ofNat 64 (s.regAt fn offset) }] })) ∧
  (∀ fn offset wide v s, Pre.bar fn s → accessOk fn offset wide = true → placeOf (offset / 8 * 8) = .reserved →
    s.regAt fn (offset / 8 * 8) = 0 ∧
    exec (.registerWrite fn offset wide v) s = .next (s.modHost fun h => { h with
      regReplies := h.regReplies ++ [{ offset := offset, isWrite := true, value := 0 }] })) ∧
  (∀ fn offset r o v s, Pre.bar fn s → accessOk fn offset true = true → placeOf offset = .rg r o →
    ((s.region r).st = .retired → ∃ t, exec (.windowAccess fn offset true false v) s = .next t ∧
      Answers offset false 0 s t ∧ t.regions = s.regions) ∧
    ((s.region r).st = .reset → ∃ t, exec (.windowAccess fn offset true false v) s = .next t ∧
      Answers offset false 0xFFFFFFFFFFFFFFFF#64 s t ∧ t.regions = s.regions) ∧
    ((s.region r).st = .sleep → s.power.shutdown = false → s.host.powerState < 3 →
      ∃ t, exec (.windowAccess fn offset true false v) s = .next t ∧ t.host = s.host ∧
        (t.region r).st = .waking ∧ (t.region r).wakeCount = (s.region r).wakeCount + 1 ∧
        (t.region r).held = (s.region r).held ++
          [{ fn := fn, offset := offset, wide := true, isWrite := false, value := v }])) ∧
  (∀ fn b v s, Pre.bar fn s → b < 40 → s.benchInService b = true → Pre.window (regionOf b) s →
    ∃ t, exec (.registerWrite fn (benchBase b + 0x300) true v) s = .next t ∧
      (t.bench b).nonfiniteIn = ((s.bench b).nonfiniteIn && !bitOf v.toNat 0) ∧
      (t.bench b).outSaturated = ((s.bench b).outSaturated && !bitOf v.toNat 1) ∧
      (t.bench b).fpInvalid = ((s.bench b).fpInvalid && !bitOf v.toNat 2) ∧
      (t.bench b).fpOverflow = ((s.bench b).fpOverflow && !bitOf v.toNat 3) ∧
      (t.bench b).seq = (s.bench b).seq ∧ (t.bench b).t0 = (s.bench b).t0 ∧
      (∀ x, x ≠ b → t.bench x = s.bench x) ∧ t.ts = s.ts ∧ t.flash = s.flash) ∧
  (∀ fn k s, Pre.bar fn s → k < 3 → ∃ t v, exec (.kclkLowRead fn k) s = .next t ∧
    v = (if k = 2 then s.clk.hoist else if k = 0 then s.clk.face0 else s.clk.face1) ∧
    Answers (counterOffset k) false (BitVec.ofNat 64 (v.toNat % 2 ^ 32)) s t ∧
    t.clk.latch k = some (BitVec.ofNat 32 (v.toNat / 2 ^ 32)) ∧ t.clk.hoist = s.clk.hoist ∧
    t.clk.face0 = s.clk.face0 ∧ t.clk.face1 = s.clk.face1 ∧ t.ts = s.ts ∧ t.benches = s.benches ∧
    ∀ w u, exec (.windowAccess fn (counterOffset k + 4) false false w) t = .next u →
      Answers (counterOffset k + 4) false (BitVec.ofNat 64 (v.toNat / 2 ^ 32)) t u)

/-- Through a PF of a powered module, with the region awake where one is named: RG_HE_STAT with err_valid written
as 1 clears err_valid and stopped and re-arms the channels of groups that no program holds; RG_HE_ARM arms the
channels of its mask that the function may arm, and is ignored while err_valid is 1; a line descriptor is
taken while its line has no pending request, where its channel is armed with the request index at 0, and
dropped with desc_dropped set while its channel is armed and a request is pending; FD_EXT_SEL takes the slot's
snapshot; PL_PORT_CTRL takes a port to DISABLED and back to DOWN; a scrub pass starts on a valid target and is
rejected while one runs, the target, select and fast fields taken in either case; the test registers take
writes in the life-cycle states that allow it and no others; a disabled monitor takes its configuration and
starts at the next boundary of its window; RG_CLK_CTRL takes max_step and sleep_idle and leaves the region's
step. (Rests on parts of R190, R192, R195, R207, R324, R379, R381, R418, R433.) -/
def Obligations.RegisterCommands : Prop :=
  (∀ fn r v s, Pre.bar fn s → Pre.window r s → (s.region r).haul.errValid = true → bitOf v.toNat 17 = true →
    ∃ t, exec (.haulEngineErrorClear fn r v) s = .next t ∧ (t.region r).haul.errValid = false ∧
      (t.region r).haul.stopped = false ∧ RegionOnly r s t ∧ (t.region r).haul.reqs = (s.region r).haul.reqs ∧
      ∀ c, c < 16 → (t.region r).haul.isArmed c =
        ((s.region r).haul.isArmed c || (s.groupHolder r (c / 4)).isNone)) ∧
  (∀ fn r v s, Pre.bar fn s → Pre.window r s → ∃ t, exec (.haulEngineReArm fn r v) s = .next t ∧ RegionOnly r s t ∧
    (t.region r).haul.reqs = (s.region r).haul.reqs ∧
    ((s.region r).haul.errValid = true → (t.region r).haul = (s.region r).haul) ∧
    ((s.region r).haul.errValid = false → ∀ c, c < 16 → (t.region r).haul.isArmed c =
      ((s.region r).haul.isArmed c || (bitOf v.toNat c && s.armable fn r c)))) ∧
  (∀ fn r l d s, Pre.bar fn s → Pre.window r s → l < 64 → ∃ t, exec (.lineDescriptorWrite fn r l d) s = .next t ∧
    RegionOnly r s t ∧ (t.region r).haul.reqs = (s.region r).haul.reqs ∧
    (∀ k, k ≠ l → tget {} (t.region r).haul.lines k = tget {} (s.region r).haul.lines k) ∧
    ((s.region r).haul.pending l = 0 → (tget {} (t.region r).haul.lines l).desc = d) ∧
    ((s.region r).haul.pending l = 0 → (s.region r).haul.isArmed ((s.region r).haul.channelOf l) = true →
      (tget {} (t.region r).haul.lines l).index = 0) ∧
    (0 < (s.region r).haul.pending l → (s.region r).haul.isArmed ((s.region r).haul.channelOf l) = true →
      tget {} (t.region r).haul.lines l = tget {} (s.region r).haul.lines l ∧
        (t.region r).haul.descDropped = true)) ∧
  (∀ fn d v s, Pre.bar fn s → d < 2 → ∃ t, exec (.extentSnapshotSelect fn d v) s = .next t ∧
    (t.die d).extSel = v.toNat % 65536 ∧
    ((t.die d).data0, (t.die d).data1, (t.die d).data2) = s.extData d (v.toNat % 65536) ∧
    (t.die d).slots = (s.die d).slots ∧ t.die (1 - d) = s.die (1 - d) ∧ t.ts.mem = s.ts.mem ∧ t.flash = s.flash) ∧
  (∀ fn p s, Pre.bar fn s → p < 8 → (s.port p).disable = false → (s.port p).st ≠ 9 →
    ∃ t, exec (.portDisable fn p) s = .next t ∧ (t.port p).st = 8 ∧ (t.port p).disable = true ∧
      (t.port p).activeLanes = 0 ∧ (∀ x, x ≠ p → t.port x = s.port x) ∧ t.ts = s.ts ∧ t.flash = s.flash) ∧
  (∀ fn p s, Pre.bar fn s → p < 8 → (s.port p).disable = true → (s.port p).st = 8 →
    ∃ t, exec (.portEnable fn p) s = .next t ∧ (t.port p).st = 0 ∧ (t.port p).disable = false ∧
      (∀ x, x ≠ p → t.port x = s.port x) ∧ t.ts = s.ts ∧ t.flash = s.flash) ∧
  (∀ fn v s, Pre.bar fn s → bitOf v.toNat 9 = true → ∃ t, exec (.scrubPassStart fn v) s = .next t ∧
    (s.mgmt.scrubBusy = true → t.mgmt = { s.mgmt with
      scrubTarget := bitsOf v.toNat 3 0, scrubSelect := bitsOf v.toNat 7 4, scrubFast := bitOf v.toNat 8
      scrubRejected := true }) ∧
    (s.mgmt.scrubBusy = false → 1 ≤ bitsOf v.toNat 3 0 → bitsOf v.toNat 3 0 ≤ 4 →
      t.mgmt.scrubBusy = true ∧ t.mgmt.scrubTarget = bitsOf v.toNat 3 0 ∧
      t.mgmt.scrubSelect = bitsOf v.toNat 7 4 ∧ t.mgmt.scrubFast = bitOf v.toNat 8 ∧ t.mgmt.scrubPass = (bitsOf v.toNat 3 0, bitsOf v.toNat 7 4) ∧
      t.mgmt.scrubWords = 0 ∧ t.mgmt.scrubUncorr = 0) ∧ t.ts = s.ts ∧ t.flash = s.flash ∧ t.benches = s.benches) ∧
  (∀ fn v s, Pre.bar fn s → ∃ t, exec (.eccTestArm fn v) s = .next t ∧
    (s.testWritable = true → t.mgmt.eccArm = bitOf v.toNat 0 ∧ t.mgmt.eccMode = bitsOf v.toNat 2 1 ∧
      t.mgmt.eccMemory = bitsOf v.toNat 4 3 ∧ t.mgmt.eccInjected = (s.mgmt.eccInjected && !bitOf v.toNat 5)) ∧
    (s.testWritable = false → t.mgmt = s.mgmt) ∧ t.mgmt.planted = s.mgmt.planted ∧ t.ts = s.ts ∧ t.benches = s.benches) ∧
  (∀ fn i c0 c1 m s, Pre.bar fn s → m = tget ({} : Monitor) s.mgmt.monitors i → m.enabled = false → m.capturing = false →
    ∃ t n, exec (.monitorConfigure fn i c0 c1) s = .next t ∧ n = tget ({} : Monitor) t.mgmt.monitors i ∧
      n.live0 = c0 &&& 0xFFFFFFFF00FFFF01#64 ∧ n.live1 = c1 ∧ n.capturing = false ∧
      (bitOf c0.toNat 0 = true → s.now < n.start ∧ n.start % windowOf c0 = 0 ∧ n.start ≤ s.now + windowOf c0) ∧
      (∀ k, k ≠ i → tget ({} : Monitor) t.mgmt.monitors k = tget ({} : Monitor) s.mgmt.monitors k) ∧ CoreSame s t) ∧
  (∀ fn r v s, Pre.bar fn s → Pre.window r s → ∃ t, exec (.maxStepWrite fn r v) s = .next t ∧
    (t.region r).maxStep = bitsOf v.toNat 4 0 ∧ (t.region r).sleepIdle = bitsOf v.toNat 31 16 ∧
    (t.region r).step = (s.region r).step ∧ (t.region r).haul = (s.region r).haul ∧ RegionOnly r s t)

/-- Identify answers the values of Table 12.4 and the power state descriptors of Table 12.10 for the controller
(MN in 40 characters; of an operational controller), the size and the values of Table 12.4 for an active
attached namespace, zeros for another valid identifier, and the ascending list of the active attached
namespaces above the identifier given; it changes nothing. Get Log Page answers the window of a page that the
module holds, a vendor page to a PF only, and zeros beyond its end; a VF that asks for a vendor page receives
Invalid Log Page. Get Features answers the current, default and saved value of each vendor feature. (Rests on
parts of R297, R298, R315, Table 12.4, Table 12.9.) -/
def Obligations.IdentifyAndLogs : Prop :=
  (∀ c nsid s, Accepts c .info s → (s.ctl c.fn).ps < 3 → ∃ t d, exec (.identify c 1 nsid) s = .next t ∧
    Posts s t { src := c, status := .success, reply := .controller d } ∧ d.mdts = 9 ∧ d.vwc = 0 ∧ d.awun = 0x1F ∧
    d.awupf = 0x1F ∧ d.npwg = 3 ∧ d.nows = 0x3F ∧ d.nn = 64 ∧ d.firmwareSlots = 2 ∧ d.apsta = 1 ∧ d.npss = 4 ∧
    d.tnvmcap = s.advertised - s.ts.t3Gb * 1000000000 ∧
    d.hmpre = (if isPf c.fn then if s.host.dual then 0x00400000 else 0x00800000 else 0) ∧ d.hmmin = 0 ∧
    d.hmminds = 0x200 ∧ d.hmmaxd = 256 ∧ d.slot1ReadOnly = false ∧ d.dlfeat = 1 ∧ d.capTo = 0x50 ∧
    d.modelNumber = padded 40 s.mfg.partNumber ∧
    d.powerStates.map (fun p => (p.operational, p.watts, p.entry, p.exit)) = [(true, 650, 0, 0),
      (true, 450, 1000, 1000), (true, 250, 1000, 1000), (false, 90, 1000, 15), (false, 35, 5000, 2000)] ∧
    HostFrame c s t) ∧
  (∀ c nsid s, Accepts c .info s → 1 ≤ nsid → nsid ≤ 64 → ∃ t, exec (.identify c 0 nsid) s = .next t ∧ HostFrame c s t ∧
    Posts s t { src := c, status := .success, reply := if s.nsUsable c.fn nsid then
      .namespaceData { blocks := (s.ns nsid).blocks, encrypted := (s.ns nsid).encrypted, nawun := 0x1F, nawupf := 0x1F
                       npwg := 3, npdg := 3, nows := 0x3F, dlfeat := 1 }
      else .namespaceData { blocks := 0, encrypted := false, nawun := 0, nawupf := 0, npwg := 0, npdg := 0, nows := 0
                            dlfeat := 0 } }) ∧
  (∀ c nsid s, Accepts c .info s → ∃ t l, exec (.identify c 2 nsid) s = .next t ∧ HostFrame c s t ∧
    Posts s t { src := c, status := .success, reply := .list l } ∧
    (∀ n, n ∈ l ↔ n ≤ 64 ∧ nsid < n ∧ s.nsUsable c.fn n = true) ∧ l.Pairwise (· < ·)) ∧
  (∀ c lid off len p s, Accepts c .info s → (s.fetch c).logPage lid = some p → (0xC0 ≤ lid → isPf c.fn = true) →
    off ≤ p.len → ∃ t b, exec (.getLogPage c lid off len) s = .next t ∧ CoreSame s t ∧ MgmtSame s t ∧
    Posts s t { src := c, status := .success, reply := .data b } ∧ b.len = len ∧
    ∀ i, i < len → b.bytes.get i = if off + i < p.len then p.byte (off + i) else 0) ∧
  (∀ c lid off len s, Accepts c .info s → 0xC0 ≤ lid → isPf c.fn = false →
    ∃ t, exec (.getLogPage c lid off len) s = .next t ∧ Posts s t { src := c, status := .invalidLogPage } ∧
      HostFrame c s t) ∧
  (∀ c fid v s, Accepts c .operational s → fid ≠ 0x02 → s.vendorFeature c.fn fid = some v →
    (∃ t, exec (.getFeatures c fid 0) s = .next t ∧ HostFrame c s t ∧
      Posts s t { src := c, status := .success, dw0 := BitVec.ofNat 32 v.1 }) ∧
    (∃ t, exec (.getFeatures c fid 1) s = .next t ∧ HostFrame c s t ∧
      Posts s t { src := c, status := .success, dw0 := BitVec.ofNat 32 v.2.1 }) ∧
    (∃ t, exec (.getFeatures c fid 2) s = .next t ∧ HostFrame c s t ∧
      Posts s t { src := c, status := .success, dw0 := BitVec.ofNat 32 v.2.2 })) ∧
  (∀ (s : State) (fn : Nat),
    s.vendorFeature fn 0xC0 = some (s.host.earlyWarning.toNat, 0x0A1402FF, s.mgmt.norEarlyWarning.toNat) ∧
    s.vendorFeature fn 0xC1 = some (s.host.patrolDays, 7, s.mgmt.norPatrol) ∧
    s.vendorFeature fn 0xC2 = some (b2n s.host.dual, 0, b2n s.mgmt.norDual) ∧
    s.vendorFeature fn 0xC3 = some (b2n s.host.encryptNew, 1, b2n s.mgmt.norEncrypt) ∧
    (fn < 17 → s.vendorFeature fn 0xC4 = some (s.host.powerCap0, 650, s.mgmt.norCap0)) ∧
    (17 ≤ fn → fn < 34 → s.vendorFeature fn 0xC4 = some (s.host.powerCap1, 650, s.mgmt.norCap1)))

/-- Everything outside the host port, the management core and the regions is as it was, but that copies of map segments
may have left the Host Memory Buffer (R271). -/
structure BufferFrame (s t : State) : Prop where
  flash : t.flash = { s.flash with hmbSegs := t.flash.hmbSegs }
  dropped : t.flash.hmbSegs <+: s.flash.hmbSegs
  benches : t.benches = s.benches
  ts : t.ts = s.ts
  scans : t.scans = s.scans
  fabric : t.fabric = s.fabric
  ckpt : t.ckpt = s.ckpt
  sec : t.sec = s.sec
  power : t.power = s.power
  resets : t.resets = s.resets
  pending : t.pending = s.pending

/-- What a Set Features command leaves: the module outside the host port and the saved features. -/
structure FeatureFrame (s t : State) : Prop where
  core : CoreSame s t
  namespaces : t.host.namespaces = s.host.namespaces
  programs : t.host.programs = s.host.programs
  ops : t.host.ops = s.host.ops
  dual : t.host.dual = s.host.dual
  journal : t.mgmt.journal = s.mgmt.journal

/-- Each vendor feature takes a value in its range, saves it when the Save bit is set, and refuses another with
Invalid Field and no effect; Port Mode must be saved and changes nothing until the next cold reset. Power
Management, which refuses a state above 4, puts the controller into an operational state at once, and into a
non-operational one at once when it has no outstanding command, and otherwise notes it; the state in effect is
then the one that State.askedPs gives. Autonomous transitions take a table whose entries name non-operational
states, and refuse another; the idle entry of a controller without outstanding commands takes the state that
was noted or that the table names. The features that the model carries on the same row
(notes/assumptions/115.md) take their settings. A Host Memory Buffer of a PF is used up to HMPRE, or given up;
a VF's is refused. (Rests on parts of R281, R285, R290, R300, R316, R317, R405, R421.) -/
def Obligations.FeaturesAndPowerStates : Prop :=
  (∀ c w save s, Accepts c .operational s → earlyWarningOk w = true →
    ∃ t, exec (.mediaEarlyWarning c w save) s = .next t ∧ Posts s t { src := c, status := .success } ∧
      t.host.earlyWarning = w ∧ t.mgmt.norEarlyWarning = (if save then w else s.mgmt.norEarlyWarning) ∧
      t.host.patrolDays = s.host.patrolDays ∧ FeatureFrame s t) ∧
  (∀ c w save s, Accepts c .operational s → earlyWarningOk w = false →
    ∃ t, exec (.mediaEarlyWarning c w save) s = .next t ∧ Posts s t { src := c, status := .invalidField } ∧
      HostFrame c s t) ∧
  (∀ c w save s, Accepts c .operational s → 2 ≤ w.toNat → w.toNat ≤ 28 →
    ∃ t, exec (.patrolPeriod c w save) s = .next t ∧ Posts s t { src := c, status := .success } ∧
      t.host.patrolDays = w.toNat ∧ t.mgmt.norPatrol = (if save then w.toNat else s.mgmt.norPatrol) ∧
      t.host.earlyWarning = s.host.earlyWarning ∧ FeatureFrame s t) ∧
  (∀ c w save s, Accepts c .operational s → (w.toNat < 2 ∨ 28 < w.toNat) →
    ∃ t, exec (.patrolPeriod c w save) s = .next t ∧ Posts s t { src := c, status := .invalidField } ∧
      HostFrame c s t) ∧
  (∀ c w s, Accepts c .operational s → w.toNat ≤ 1 →
    ∃ t, exec (.portMode c w true) s = .next t ∧ Posts s t { src := c, status := .success } ∧
      t.mgmt.norDual = decide (w.toNat = 1) ∧ FeatureFrame s t) ∧
  (∀ c w save s, Accepts c .operational s → (save = false ∨ 1 < w.toNat) → ∃ t, exec (.portMode c w save) s = .next t ∧
    Posts s t { src := c, status := .invalidField } ∧ HostFrame c s t) ∧
  (∀ c w save s, Accepts c .operational s → w.toNat ≤ 1 →
    ∃ t, exec (.encryptNewNamespaces c w save) s = .next t ∧ Posts s t { src := c, status := .success } ∧
      t.host.encryptNew = decide (w.toNat = 1) ∧
      t.mgmt.norEncrypt = (if save then decide (w.toNat = 1) else s.mgmt.norEncrypt) ∧ FeatureFrame s t) ∧
  (∀ c w save s, Accepts c .operational s → 1 < w.toNat → ∃ t, exec (.encryptNewNamespaces c w save) s = .next t ∧
    Posts s t { src := c, status := .invalidField } ∧ HostFrame c s t) ∧
  (∀ c w save s, Accepts c .operational s → 250 ≤ w.toNat → w.toNat ≤ 650 →
    ∃ t, exec (.powerCap c w save) s = .next t ∧ Posts s t { src := c, status := .success } ∧ FeatureFrame s t ∧
      (c.fn < 17 → t.host.powerCap0 = w.toNat ∧ t.host.powerCap1 = s.host.powerCap1 ∧
        t.mgmt.norCap0 = (if save then w.toNat else s.mgmt.norCap0) ∧ t.mgmt.norCap1 = s.mgmt.norCap1) ∧
      (17 ≤ c.fn → t.host.powerCap1 = w.toNat ∧ t.host.powerCap0 = s.host.powerCap0 ∧
        t.mgmt.norCap1 = (if save then w.toNat else s.mgmt.norCap1) ∧ t.mgmt.norCap0 = s.mgmt.norCap0)) ∧
  (∀ c w save s, Accepts c .operational s → (w.toNat < 250 ∨ 650 < w.toNat) →
    ∃ t, exec (.powerCap c w save) s = .next t ∧ Posts s t { src := c, status := .invalidField } ∧ HostFrame c s t) ∧
  (∀ c ps save s, Accepts c .operational s → ps ≤ 4 →
    ∃ t, exec (.powerManagement c ps save) s = .next t ∧ Posts s t { src := c, status := .success } ∧
      CoreSame s t ∧ (ps < 3 → (t.ctl c.fn).ps = ps ∧ (t.ctl c.fn).lastOpPs = ps) ∧
      (3 ≤ ps → s.outstanding c.fn = false → (t.ctl c.fn).ps = ps) ∧
      (3 ≤ ps → s.outstanding c.fn = true → (t.ctl c.fn).idlePs = some ps) ∧
      t.host.powerState = t.askedPs ∧ (save = true → tget 0 t.mgmt.norPs c.fn = ps)) ∧
  (∀ c ps save s, Accepts c .operational s → 4 < ps → ∃ t, exec (.powerManagement c ps save) s = .next t ∧
    Posts s t { src := c, status := .invalidField } ∧ HostFrame c s t) ∧
  (∀ c x tb s, Accepts c .operational s → (∀ e ∈ tb, 0 < e.2 → e.1 = 3 ∨ e.1 = 4) →
    ∃ t, exec (.autonomousPowerStateTransition c x tb) s = .next t ∧ Posts s t { src := c, status := .success } ∧
      FeatureFrame s t ∧
      match x with
      | .apst on => (t.ctl c.fn).apst = on ∧ (t.ctl c.fn).apstTable = tb
      | .arbitration burst low medium high => (t.ctl c.fn).arb.burst = burst ∧ (t.ctl c.fn).arb.low = low ∧
          (t.ctl c.fn).arb.medium = medium ∧ (t.ctl c.fn).arb.high = high
      | .eventsOff codes => (t.ctl c.fn).eventsOff = codes
      | .permissive on => (t.ctl c.fn).permissive = on) ∧
  (∀ c x tb s, Accepts c .operational s → (∃ e ∈ tb, 0 < e.2 ∧ e.1 ≠ 3 ∧ e.1 ≠ 4) →
    ∃ t, exec (.autonomousPowerStateTransition c x tb) s = .next t ∧
      Posts s t { src := c, status := .invalidField } ∧ HostFrame c s t) ∧
  (∀ fn p s, (s.ctl fn).rdy = true → s.outstanding fn = false → (s.ctl fn).idleTarget s.now = some p →
    ∃ t, exec (.powerStateIdleEntry fn) s = .next t ∧ (t.ctl fn).ps = p ∧ (t.ctl fn).idlePs = none ∧
      t.host.powerState = t.askedPs ∧ CoreSame s t ∧ t.mgmt = s.mgmt ∧ PostsNone s t) ∧
  (∀ c b s, AcceptsPf c .operational s → ∃ t, exec (.hostMemoryBuffer c true b) s = .next t ∧
    Posts s t { src := c, status := .success } ∧
    (t.ctl c.fn).hmbBytes = min b (if s.host.dual then 17179869184 else 34359738368) ∧ BufferFrame s t) ∧
  (∀ c b s, AcceptsPf c .operational s → ∃ t, exec (.hostMemoryBuffer c false b) s = .next t ∧
    Posts s t { src := c, status := .success } ∧ (t.ctl c.fn).hmbBytes = 0 ∧ BufferFrame s t) ∧
  (∀ c e b s, Accepts c .operational s → isPf c.fn = false → ∃ t, exec (.hostMemoryBuffer c e b) s = .next t ∧
    Posts s t { src := c, status := .invalidField } ∧ HostFrame c s t)

/-- A creation with room takes the lowest free identifier, encrypted as Feature 0xC3 says; an attachment adds
controllers that exist and none of which is attached, and a detachment removes them. Format NVM with Secure
Erase Setting 2 gives an encrypted namespace a new key and unmaps every one of its blocks and no other.
Sanitize with crypto erase, with nothing outstanding and no checkpoint stream, unmaps every block of every
active namespace, erases the checkpoint images and gives T3 new keys. A deletion, with nothing outstanding and
no write under way, unmaps the namespace's blocks and leaves no namespace at its identifier. (Rests on parts
of R168, R297, R405, R407.) -/
def Obligations.NamespacesFormatSanitize : Prop :=
  (∀ c blocks i s, Accepts c .operational s → s.flash.readOnly = false → 0 < blocks →
    s.allocated + 1073741824 * ceilDiv blocks 262144 ≤ s.nvmCapacity → i < 64 → (s.ns (i + 1)).active = false →
    (∀ j, j < i → (s.ns (j + 1)).active = true) →
    ∃ t, exec (.namespaceManagement c 0 0 blocks) s = .next t ∧
      Posts s t { src := c, status := .success, dw0 := BitVec.ofNat 32 (i + 1) } ∧
      t.ns (i + 1) = { active := true, blocks := blocks, encrypted := s.host.encryptNew
                       key := if s.host.encryptNew then s.sec.nextKey else 0 } ∧
      (∀ k, k ≠ i + 1 → t.ns k = s.ns k) ∧ t.flash = s.flash ∧ t.ts = s.ts) ∧
  (∀ c nsid fns s, Accepts c .operational s → (s.ns nsid).active = true → fns ≠ [] →
    (∀ f ∈ fns, s.hasFn f = true ∧ f ∉ (s.ns nsid).attached) →
    ∃ t, exec (.namespaceAttachment c 0 nsid fns) s = .next t ∧ Posts s t { src := c, status := .success } ∧
      (∀ f, f ∈ (t.ns nsid).attached ↔ f ∈ (s.ns nsid).attached ∨ f ∈ fns) ∧
      (∀ k, k ≠ nsid → t.ns k = s.ns k) ∧ CoreSame s t) ∧
  (∀ c nsid fns s, Accepts c .operational s → (s.ns nsid).active = true → fns ≠ [] →
    (∀ f ∈ fns, s.hasFn f = true ∧ f ∈ (s.ns nsid).attached) →
    ∃ t, exec (.namespaceAttachment c 1 nsid fns) s = .next t ∧ Posts s t { src := c, status := .success } ∧
      (∀ f, f ∈ (t.ns nsid).attached ↔ f ∈ (s.ns nsid).attached ∧ f ∉ fns) ∧
      (∀ k, k ≠ nsid → t.ns k = s.ns k) ∧ CoreSame s t) ∧
  (∀ c nsid s, Accepts c .operational s → s.nsUsable c.fn nsid = true → (s.ns nsid).encrypted = true →
    ∃ t, exec (.formatNvm c nsid 2) s = .next t ∧ Posts s t { src := c, status := .success } ∧
      (t.ns nsid).key = s.sec.nextKey ∧ t.sec.nextKey = s.sec.nextKey + 1 ∧
      (∀ u, u < 2 ^ 40 → tget 0 t.flash.map (iuKey nsid u) = 0) ∧
      (∀ k, (k < iuKey nsid 0 ∨ iuKey (nsid + 1) 0 ≤ k) → tget 0 t.flash.map k = tget 0 s.flash.map k) ∧
      (∀ k, k ≠ nsid → t.ns k = s.ns k) ∧ t.ts = s.ts ∧ t.benches = s.benches) ∧
  (∀ c nsid s, Accepts c .operational s → s.nsUsable c.fn nsid = true → (s.ns nsid).encrypted = false →
    ∃ t, exec (.formatNvm c nsid 2) s = .next t ∧ Posts s t { src := c, status := .invalidFormat } ∧ HostFrame c s t) ∧
  (∀ c s, Accepts c .operational s → Pre.still s → s.ckpt.buddy = none → s.ckpt.flash = none →
    ∃ t, exec (.sanitize c 4) s = .next t ∧ Posts s t { src := c, status := .success } ∧
      (∀ n u, thas s.host.namespaces n = true → (s.ns n).active = true → u < 2 ^ 40 →
        tget 0 t.flash.map (iuKey n u) = 0) ∧
      t.ckpt.flashCommitted = 0 ∧ t.ckpt.flashFrames0 = [] ∧ t.ckpt.flashFrames1 = [] ∧
      s.sec.nextKey + 3 ≤ t.sec.nextKey ∧ s.sec.nextKey ≤ (t.die 0).t3Key ∧ (t.die 0).t3Key < (t.die 1).t3Key ∧
      t.benches = s.benches) ∧
  (∀ c nsid s, Accepts c .operational s → (s.ns nsid).active = true → nsid ≠ 0xFFFFFFFF → s.host.ops = [] →
    s.flash.parts = [] → ∃ t, exec (.namespaceManagement c 1 nsid 0) s = .next t ∧
      Posts s t { src := c, status := .success } ∧ (t.ns nsid).active = false ∧
      (∀ u, u < 2 ^ 40 → tget 0 t.flash.map (iuKey nsid u) = 0) ∧
      (∀ k, k ≠ nsid → t.ns k = s.ns k) ∧ t.ts = s.ts)

/-- Create I/O Queue takes an unused identifier within the function's limit with 2 to 4,096 entries and refuses
another identifier or size; a completion queue takes an interrupt vector of the function, a submission queue
an existing completion queue; a doorbell moves the tail of an existing queue. Of the queues of a controller
only one with commands to fetch is served, the admin queue first, and the urgent class next. CC.EN set by the
host on a controller that is off makes it enabled and not ready, with its admin queue; CONTROLLER_READY makes
it ready once the module has mounted and no reset of die scope or above runs. An Asynchronous Event Request
takes the oldest waiting event, or waits. With nothing outstanding or waiting, CC.EN cleared empties the
controller; a Function Level Reset of a VF that holds no program and no unshared extent does so too and
returns its quotas to the whole pool. (Rests on parts of R25, R294, R295, R296, R299, R314, R317.) -/
def Obligations.ControllersAndQueues : Prop :=
  (∀ c qid n v p s, Accepts c .operational s → 1 ≤ qid → qid ≤ queueLimit c.fn → thas (s.ctl c.fn).cqs qid = false →
    2 ≤ n → n ≤ 4096 → v < (if isPf c.fn then 65 else 17) → ∃ t, exec (.createIoQueue c true qid n v p) s = .next t ∧
      Posts s t { src := c, status := .success } ∧
      tget {} (t.ctl c.fn).cqs qid = { entries := n, vector := v, interrupts := p % 2 == 1 } ∧ CoreSame s t ∧ MgmtSame s t) ∧
  (∀ c qid n cq p s, Accepts c .operational s → 1 ≤ qid → qid ≤ queueLimit c.fn → thas (s.ctl c.fn).sqs qid = false →
    2 ≤ n → n ≤ 4096 → cq ≠ 0 → thas (s.ctl c.fn).cqs cq = true →
    ∃ t, exec (.createIoQueue c false qid n cq p) s = .next t ∧ Posts s t { src := c, status := .success } ∧
      tget {} (t.ctl c.fn).sqs qid = { entries := n, cq := cq, prio := p } ∧ CoreSame s t ∧ MgmtSame s t) ∧
  (∀ c b qid n cq p s, Accepts c .operational s → (qid = 0 ∨ queueLimit c.fn < qid) →
    ∃ t, exec (.createIoQueue c b qid n cq p) s = .next t ∧ Posts s t { src := c, status := .invalidQueueId } ∧
      HostFrame c s t) ∧
  (∀ c b qid n cq p s, Accepts c .operational s → 1 ≤ qid → qid ≤ queueLimit c.fn →
    (if b then thas (s.ctl c.fn).cqs qid else thas (s.ctl c.fn).sqs qid) = false → (n < 2 ∨ 4096 < n) →
    ∃ t, exec (.createIoQueue c b qid n cq p) s = .next t ∧ Posts s t { src := c, status := .invalidQueueSize } ∧
      HostFrame c s t) ∧
  (∀ (k : Controller) (q : Nat), k.nextSq = some q → q ∈ k.work ∧ (0 ∈ k.work → q = 0) ∧
    (0 ∉ k.work → (∃ u ∈ k.work, k.queueClass u = 1) → k.queueClass q = 1)) ∧
  (∀ fn q tail s, (s.ctl fn).rdy = true → thas (s.ctl fn).sqs q = true → tail < (tget {} (s.ctl fn).sqs q).entries →
    ∃ t, exec (.sqDoorbell fn q tail) s = .next t ∧ (tget {} (t.ctl fn).sqs q).tail = tail ∧
      (tget {} (t.ctl fn).sqs q).head = (tget {} (s.ctl fn).sqs q).head ∧ (∀ f, f ≠ fn → t.ctl f = s.ctl f) ∧
      CoreSame s t ∧ t.mgmt = s.mgmt) ∧
  (∀ fn cc s, s.power.on = true → s.hasFn fn = true → s.inPerst fn = false → (s.ctl fn).en = false →
    (s.ctl fn).cfs = false → (s.ctl fn).rdy = false → ∃ t, exec (.controllerEnable fn cc) s = .next t ∧
      (t.ctl fn).en = true ∧ (t.ctl fn).rdy = false ∧ (t.ctl fn).cc = cc ∧ (t.ctl fn).sqs.map (·.1) = [0] ∧ (t.ctl fn).cqs.map (·.1) = [0] ∧
      (∀ f, f ≠ fn → t.ctl f = s.ctl f) ∧ CoreSame s t ∧ t.mgmt = s.mgmt) ∧
  (∀ fn s, (s.ctl fn).en = true → (s.ctl fn).rdy = false → s.flash.mounted = true → s.power.on = true →
    s.power.shutdown = false → (∀ r ∈ s.resets, r.scope < 2) →
    ∃ t, exec (.controllerReady fn) s = .next t ∧ (t.ctl fn).rdy = true ∧ CoreSame s t) ∧
  (∀ fn s, (s.flash.mounted = false ∨ ∃ r ∈ s.resets, 2 ≤ r.scope) → exec (.controllerReady fn) s = .next s) ∧
  (∀ c e rest s, Accepts c .operational s → (s.ctl c.fn).aenQueue = e :: rest →
    ∃ t, exec (.asynchronousEventRequest c) s = .next t ∧ (t.ctl c.fn).aenQueue = rest ∧
      t.host.aens = s.host.aens ++ [{ fn := c.fn, code := e.1, log := e.2 }] ∧
      Posts s t { src := c, status := .success, dw0 := aenDword e.1 e.2 } ∧ CoreSame s t) ∧
  (∀ c s, Accepts c .operational s → (s.ctl c.fn).aenQueue = [] → (s.ctl c.fn).aers = [] →
    ∃ t, exec (.asynchronousEventRequest c) s = .next t ∧ (t.ctl c.fn).aers = [c.cid] ∧ PostsNone s t ∧ CoreSame s t) ∧
  (∀ fn s, Pre.still s → ∃ t, exec (.controllerDisable fn) s = .next t ∧ (t.ctl fn).en = false ∧
    (t.ctl fn).rdy = false ∧ (t.ctl fn).sqs = [] ∧ (t.ctl fn).cqs = [] ∧ (t.ctl fn).aers = [] ∧
    (∀ f, f ≠ fn → t.ctl f = s.ctl f) ∧ t.host.programs = s.host.programs ∧ PostsNone s t ∧ BufferFrame s t) ∧
  (∀ fn s, Pre.still s → s.power.on = true → s.hasFn fn = true → isPf fn = false →
    (∀ k, k / 16 = fn → thas s.host.programs k = false) →
    (∀ d, ∀ x ∈ (s.die d).slots, x.2.owner = fn → x.2.shared = true ∨ x.2.st = 0) →
    ∃ t, exec (.functionLevelReset fn) s = .next t ∧ (t.ctl fn).en = false ∧ (t.ctl fn).rdy = false ∧
      (t.ctl fn).quota1 = none ∧ (t.ctl fn).quota2 = none ∧ (t.ctl fn).quota3 = none ∧
      (∀ f, f ≠ fn → t.ctl f = s.ctl f) ∧ PostsNone s t ∧ BufferFrame s t)

/-- Everything but the host port, the security engine and the management core is as it was. -/
structure SecFrame (s t : State) : Prop where
  pending : t.pending = s.pending
  mfg : t.mfg = s.mfg
  clk : t.clk = s.clk
  benches : t.benches = s.benches
  ts : t.ts = s.ts
  flash : t.flash = s.flash
  scans : t.scans = s.scans
  fabric : t.fabric = s.fabric
  ckpt : t.ckpt = s.ckpt
  power : t.power = s.power
  resets : t.resets = s.resets

/-- A fragment that FIRMWARE_IMAGE_DOWNLOAD takes: whole dwords within a bank. -/
abbrev Pre.fragment (offset : Nat) (data : Buf) : Prop :=
  0 < data.len ∧ offset % 4 = 0 ∧ data.len % 4 = 0 ∧ offset + data.len ≤ bankBytes ∧ data.bytes.wf = true

/-- The staged image of `t` is that of `s` with the fragment merged into it. -/
structure Staged (offset : Nat) (data : Buf) (s t : State) : Prop where
  len : t.mgmt.fwStaged.len = Nat.max s.mgmt.fwStaged.len (offset + data.len)
  inside : ∀ i, i < data.len → t.mgmt.fwStaged.bytes.get (offset + i) = data.bytes.get i
  outside : ∀ i, (i < offset ∨ offset + data.len ≤ i) →
    t.mgmt.fwStaged.bytes.get i = s.mgmt.fwStaged.bytes.get i

/-- The module as a module reset leaves it for the host: no controller ready, nothing outstanding, no program, no
scan, tensor space empty, the flash to be mounted again, namespaces and medium standing. -/
structure ModuleCleared (s t : State) : Prop where
  controllers : ∀ fn, (t.ctl fn).rdy = false ∧ (t.ctl fn).en = false ∧ (t.ctl fn).sqs = []
  ops : t.host.ops = []
  programs : t.host.programs = []
  scans : t.scans = []
  space : ∀ a, t.ts.mem.get a = 0
  extents : ∀ d j, d < 2 → (t.extent d j).st = 0
  stores : ∀ b a, b < 40 → (t.bench b).t0.get a = 0
  mounted : t.flash.mounted = false
  media : t.flash.media = s.flash.media
  namespaces : t.host.namespaces = s.host.namespaces
  sessions : t.sec.sessions = []

/-- A fragment of whole dwords within a bank is merged into the staged image and nothing else changes; any other
is refused. While no bank has booted, the boot ROM takes download and commit over NVMe-MI: an image that does
not verify is refused, one that does is written to bank 0 and a cold reset follows. A commit to the bank that
runs, to no bank or with an action other than 1 is refused before any erase; one of an image that is not newer
completes with Invalid Firmware Image, and of one that does not verify with status 0xC5; one that passes every
check becomes an outstanding command at the erase stage and has not touched a bank. The boot chain after a
cold reset hands over to a bank that verifies and that no verifying bank is newer than, with the security
version never lowered and no revoked slot restored; without one it waits. (Rests on parts of R394, R395, R396,
R397, R443, R444, R446.) -/
def Obligations.FirmwareDownloadCommitBoot : Prop :=
  (∀ c offset data s, Accepts c .operational s → s.sec.booted = true → Pre.fragment offset data →
    ∃ t, exec (.firmwareImageDownload c offset data) s = .next t ∧ Posts s t { src := c, status := .success } ∧
      Staged offset data s t ∧ CoreSame s t) ∧
  (∀ c offset data s, Accepts c .operational s → s.sec.booted = true →
    (data.len = 0 ∨ offset % 4 ≠ 0 ∨ data.len % 4 ≠ 0 ∨ bankBytes < offset + data.len) →
    ∃ t, exec (.firmwareImageDownload c offset data) s = .next t ∧
      Posts s t { src := c, status := .invalidField } ∧ HostFrame c s t) ∧
  (∀ c offset data s, s.sec.booted = false → s.power.on = true → Pre.fragment offset data →
    ∃ t, exec (.firmwareImageDownload c offset data) s = .next t ∧ t.host = s.host ∧
      t.mgmt.miReplies = s.mgmt.miReplies ++ [.number 0] ∧ Staged offset data s t ∧ CoreSame s t) ∧
  (∀ c action slot s, s.sec.booted = false → s.power.on = true → (action ≠ 1 ∨ slot ≠ 1) →
    exec (.firmwareCommit c action slot) s = .next (s.mi .error)) ∧
  (∀ c b s, s.sec.booted = false → s.power.on = true → (∀ r ∈ s.resets, r.scope ≠ 4) →
    b = imageBank s.mgmt.fwStaged → ∃ t, exec (.firmwareCommit c 1 1) s = .next t ∧
      (s.bankVerifies b = false → t.sec = s.sec ∧ t.mgmt.fwResult = 2 ∧
        t.mgmt.miReplies = s.mgmt.miReplies ++ [.error] ∧ CoreSame s t) ∧
      (s.bankVerifies b = true → t.sec.bank0 = b ∧ t.sec.bank1 = s.sec.bank1 ∧ t.mgmt.coldCause = 0x05 ∧
        t.mgmt.miReplies = s.mgmt.miReplies ++ [.number 0] ∧ t.resets.map (·.scope) = [4] ∧ ModuleCleared s t)) ∧
  (∀ c action slot s, Accepts c .operational s → s.sec.booted = true → action ≠ 1 →
    ∃ t, exec (.firmwareCommit c action slot) s = .next t ∧ Posts s t { src := c, status := .invalidField } ∧
      HostFrame c s t) ∧
  (∀ c slot s, Accepts c .operational s → s.sec.booted = true →
    (slotBank slot = none ∨ slotBank slot = some s.sec.bootBank) →
    ∃ t, exec (.firmwareCommit c 1 slot) s = .next t ∧ Posts s t { src := c, status := .invalidFirmwareSlot } ∧
      HostFrame c s t) ∧
  (∀ c slot k b s, Accepts c .operational s → s.sec.booted = true → slotBank slot = some k → k ≠ s.sec.bootBank →
    s.mgmt.fwWork = none → b = imageBank s.mgmt.fwStaged → ∃ t, exec (.firmwareCommit c 1 slot) s = .next t ∧
      CoreSame s t ∧ (t.bank 0 = s.bank 0 ∧ t.bank 1 = s.bank 1) ∧
      (b.sequence ≤ (s.bank s.sec.bootBank).sequence ∨ s.bankVerifies b = false → t.mgmt.fwResult = 2 ∧
        t.host.ops = s.host.ops ∧ ∃ st, Posts s t { src := c, status := st } ∧
          st = (if b.sequence ≤ (s.bank s.sec.bootBank).sequence then .invalidFirmwareImage else .vendor 0xC5)) ∧
      ((s.bank s.sec.bootBank).sequence < b.sequence → s.bankVerifies b = true → PostsNone s t ∧
        t.host.ops = s.host.ops ++ [{ id := s.host.nextOp, src := c, kind := .firmwareCommit slot, since := s.now }] ∧
        t.mgmt.fwWork = some { op := s.host.nextOp, fn := c.fn, bank := k, stage := 2, sectors := 0,
                               needed := sectorsFor s.mgmt.fwStaged, image := s.mgmt.fwStaged })) ∧
  (∀ s, s.power.on = true → s.sec.booted = false → (∃ r ∈ s.resets, r.scope = 4) →
    s.sec.completionRecord = s.lifeCycle.code → ∃ t, exec .bootChain s = .next t ∧ t.mgmt.norIntent = [] ∧
      t.sec.bank0 = s.sec.bank0 ∧ t.sec.bank1 = s.sec.bank1 ∧ t.sec.lcRecord = s.sec.lcRecord ∧
      t.host = s.host ∧ t.resets = s.resets ∧
      (s.bankVerifies s.sec.bank0 = false → s.bankVerifies s.sec.bank1 = false → t.sec = s.sec) ∧
      (s.bankVerifies s.sec.bank0 = true ∨ s.bankVerifies s.sec.bank1 = true →
        t.sec.booted = true ∧ t.sec.bootBank < 2 ∧ s.bankVerifies (s.bank t.sec.bootBank) = true ∧
        t.sec.bootSlot = (s.bank t.sec.bootBank).keySlot ∧ s.sec.svn ≤ t.sec.svn ∧
        (s.bank t.sec.bootBank).header.getLe 0x12 2 ≤ t.sec.svn ∧
        (∀ k, k < 2 → s.bankVerifies (s.bank k) = true → (s.bank k).sequence ≤ (s.bank t.sec.bootBank).sequence) ∧
        (∀ i, bitOf s.sec.slotRevoked i = true → bitOf t.sec.slotRevoked i = true) ∧
        (bitOf s.sec.slotRevoked t.sec.bootSlot = false → bitOf t.sec.slotRevoked t.sec.bootSlot = false))) ∧
  (∀ s, (s.sec.booted = true ∨ s.power.on = false ∨ ∀ r ∈ s.resets, r.scope ≠ 4) → exec .bootChain s = .next s)

/-- From a PF: Provision Begin draws a seed and answers the request over its key; Certificate Install takes a
chain of the stated length whose leaf holds the identity key, and a chain in slot 0 moves the module to
PROVISIONED with the seed wrapped twice; Life Cycle Nonce answers 32 bytes of the generator and keeps them;
Life Cycle Transition with commands outstanding, or to a state that the present one does not lead to, changes
nothing, and otherwise blows its one-way entry, completes and resets the module; Program Signing Configure
sets the policy and the digest of one slot. A VF receives Invalid Command Opcode and changes nothing. (Rests
on parts of R398, R399, R408, R409, R410, R412, Table 16.8.) -/
def Obligations.ProvisioningAndLifeCycle : Prop :=
  (∀ c s, AcceptsPf c .provision s → ∃ t, exec (.provisionBegin c) s = .next t ∧ SecFrame s t ∧ MgmtSame s t ∧
    Posts s t { src := c, status := .success,
                reply := .data (Buf.ofBytes (Config.pkcs10 s.sec.draws s.mfg.serial.toNat)) } ∧
    t.sec = { s.sec with seedHeld := some s.sec.draws, draws := s.sec.draws + 1 }) ∧
  (∀ c dw10 dw11 chain d s, AcceptsPf c .slot0 s → fld dw10 0 0 = 0 → fld dw10 31 1 = 0 → chain.len = dw11.toNat →
    0 < chain.len → chain.len ≤ 32768 → s.sec.seed = some d →
    ∃ t, exec (.certificateInstall c dw10 dw11 chain) s = .next t ∧ SecFrame s t ∧ MgmtSame s t ∧
      (s.sec.leafMatches chain = true → Posts s t { src := c, status := .success } ∧ t.sec.chain0 = chain ∧
        t.sec.chain1 = s.sec.chain1 ∧ t.sec.lcRecord = s.sec.lcRecord ++ [1] ∧ t.sec.seedHeld = none ∧
        t.sec.seedCopies = [(d, s.sec.lcRecord.length + 1), (d, s.sec.lcRecord.length + 1)] ∧ t.sec.seed = some d ∧
        (s.sec.decommissioned = false → t.lifeCycle = .provisioned)) ∧
      (s.sec.leafMatches chain = false → Posts s t { src := c, status := .invalidField } ∧ t.sec = s.sec)) ∧
  (∀ c dw10 dw11 chain d s, AcceptsPf c .slot1 s → fld dw10 0 0 = 1 → fld dw10 31 1 = 0 → chain.len = dw11.toNat →
    0 < chain.len → chain.len ≤ 16384 → s.sec.seed = some d →
    ∃ t, exec (.certificateInstall c dw10 dw11 chain) s = .next t ∧ SecFrame s t ∧ MgmtSame s t ∧
      (s.sec.leafMatches chain = true → Posts s t { src := c, status := .success } ∧
        t.sec = { s.sec with chain1 := chain }) ∧
      (s.sec.leafMatches chain = false → Posts s t { src := c, status := .invalidField } ∧ t.sec = s.sec)) ∧
  (∀ c s, AcceptsPf c .lifeCycle s → ∃ t, exec (.lifeCycleNonce c) s = .next t ∧ SecFrame s t ∧ MgmtSame s t ∧
    Posts s t { src := c, status := .success,
                reply := .data (Buf.ofBytes ((Config.random s.sec.draws).take 32)) } ∧
    t.sec = { s.sec with nonce := some s.sec.draws, draws := s.sec.draws + 1 }) ∧
  (∀ c dw10 auth s, AcceptsPf c .lifeCycle s → fld dw10 31 4 = 0 → s.host.ops ≠ [] →
    ∃ t, exec (.lifeCycleTransition c dw10 auth) s = .next t ∧
      Posts s t { src := c, status := .commandSequenceError } ∧ HostFrame c s t) ∧
  (∀ c dw10 auth s, AcceptsPf c .lifeCycle s → fld dw10 31 4 = 0 → s.host.ops = [] → fld dw10 3 0 ≠ 4 →
    s.lifeCycle = .deployed → fld dw10 3 0 ≠ 3 → s.sec.lcRecord.length < 31 →
    ∃ t, exec (.lifeCycleTransition c dw10 auth) s = .next t ∧
      Posts s t { src := c, status := .vendor 0xC5 } ∧ HostFrame c s t) ∧
  (∀ c dw10 auth s, AcceptsPf c .lifeCycle s → fld dw10 31 4 = 0 → s.host.ops = [] → s.resets = [] →
    ((fld dw10 3 0 = 2 ∧ s.lifeCycle = .provisioned ∧ s.sec.lcRecord.length < 31) ∨ fld dw10 3 0 = 4) →
    ∃ t, exec (.lifeCycleTransition c dw10 auth) s = .next t ∧ Posts s t { src := c, status := .success } ∧
      t.lifeCycle.code = fld dw10 3 0 ∧ t.sec.transition = some (fld dw10 3 0) ∧
      (fld dw10 3 0 = 2 → t.sec.lcRecord = s.sec.lcRecord ++ [2]) ∧
      (fld dw10 3 0 = 4 → t.sec.decommissioned = true ∧ t.sec.lcRecord = s.sec.lcRecord) ∧
      t.resets.map (·.scope) = [3] ∧ ModuleCleared s t) ∧
  (∀ c dw10 key s, AcceptsPf c .signing s → fld dw10 31 4 = 0 → (bitOf dw10.toNat 3 = true ∨ key.len = 1952) →
    ∃ t, exec (.programSigningConfigure c dw10 key) s = .next t ∧ Posts s t { src := c, status := .success } ∧
      SecFrame s t ∧ MgmtSame s t ∧ t.sec.signRequired = bitOf dw10.toNat 0 ∧
      (bitOf dw10.toNat 3 = false →
        tget [] t.sec.programDigest (fld dw10 2 1) = Config.shake256 64 key.toBytes) ∧
      (bitOf dw10.toNat 3 = true → tget [] t.sec.programDigest (fld dw10 2 1) = []) ∧
      (∀ k, k ≠ fld dw10 2 1 → tget [] t.sec.programDigest k = tget [] s.sec.programDigest k) ∧
      t.sec.lcRecord = s.sec.lcRecord ∧ t.sec.chain0 = s.sec.chain0 ∧ t.sec.chain1 = s.sec.chain1) ∧
  (∀ c dw10 key s, AcceptsPf c .signing s → (fld dw10 31 4 ≠ 0 ∨ (bitOf dw10.toNat 3 = false ∧ key.len ≠ 1952)) →
    ∃ t, exec (.programSigningConfigure c dw10 key) s = .next t ∧
      Posts s t { src := c, status := .invalidField } ∧ HostFrame c s t) ∧
  (∀ i c k s, (i = .provisionBegin c ∧ k = .provision ∨ i = .lifeCycleNonce c ∧ k = .lifeCycle ∨
      (∃ x a, i = .lifeCycleTransition c x a) ∧ k = .lifeCycle ∨
      (∃ x a, i = .programSigningConfigure c x a) ∧ k = .signing) → Accepts c k s → isPf c.fn = false →
    ∃ t, exec i s = .next t ∧ Posts s t { src := c, status := .invalidOpcode } ∧ HostFrame c s t)

/-- A PF's mailbox answers attestation requests. -/
abbrev Pre.attesting (port : Nat) (s : State) : Prop := s.mailbox port = true ∧ s.attests = true

/-- GET_VERSION answers 1.4 in every life-cycle state; every other request in BLANK or DECOMMISSIONED is answered
with ERROR and changes nothing else. GET_CERTIFICATE answers the window of a slot's chain, and ERROR beyond
its end. CHALLENGE and GET_MEASUREMENTS answer content signed with the identity key; index 0 answers 10, a
number above 10 other than 0xFF ERROR. KEY_EXCHANGE opens a session with a fresh number while a port has fewer
than four, and ERROR otherwise. HEARTBEAT renews a live session. PROGRAM_KEY_SET sets the signing policy in a
session with the owner's authority, and is answered with ERROR without one. (Rests on parts of R399, R400,
R401, R402, Table 16.5, Table 16.7.) -/
def Obligations.Attestation : Prop :=
  (∀ port s, s.mailbox port = true → exec (.getVersion port) s = .next (s.spdm (.number 0x14))) ∧
  (∀ i port s, (i = .getCertificate port 0 0 1 ∨ i = .challenge port 0 [] ∨ i = .getMeasurements port 0 [] ∨
      i = .keyExchange port [] true ∨ i = .heartbeat port 1) → s.mailbox port = true → s.attests = false →
    exec i s = .next (s.spdm .error)) ∧
  (∀ port slot offset len b s, Pre.attesting port s → b = s.sec.chain slot → offset < b.len →
    ∃ d, exec (.getCertificate port slot offset len) s = .next (s.spdm (.data d)) ∧
      d.len = Nat.min len (b.len - offset) ∧ ∀ i, i < d.len → d.bytes.get i = b.bytes.get (offset + i)) ∧
  (∀ port slot offset len s, Pre.attesting port s → (s.sec.chain slot).len ≤ offset →
    exec (.getCertificate port slot offset len) s = .next (s.spdm .error)) ∧
  (∀ port slot nonce d s, Pre.attesting port s → 0 < (s.sec.chain slot).len → s.sec.seed = some d →
    exec (.challenge port slot nonce) s = .next (s.spdm (.signed nonce
      (Config.mlDsaSign d (Config.transcript 1 [(s.sec.chain slot).toBytes, nonce]))))) ∧
  (∀ port nonce s, Pre.attesting port s → exec (.getMeasurements port 0 nonce) s = .next (s.spdm (.number 10))) ∧
  (∀ port index nonce d s, Pre.attesting port s → s.sec.seed = some d → 1 ≤ index → index ≤ 10 →
    exec (.getMeasurements port index nonce) s = .next (s.spdm (.signed (s.measurement index)
      (Config.mlDsaSign d (Config.transcript 2 [s.measurement index, nonce]))))) ∧
  (∀ port index nonce s, Pre.attesting port s → 10 < index → index ≠ 0xFF →
    exec (.getMeasurements port index nonce) s = .next (s.spdm .error)) ∧
  (∀ port key o d s, Pre.attesting port s → s.sec.seed = some d → (s.liveSessions port).length < 4 →
    ∃ t sig, exec (.keyExchange port key o) s = .next t ∧ SecFrame s t ∧ t.host = s.host ∧ t.mgmt = s.mgmt ∧
      t.sec.nextSession = s.sec.nextSession + 1 ∧ t.sec.draws = s.sec.draws + 1 ∧
      t.liveSessions port = s.liveSessions port ++ [{ id := s.sec.nextSession, port := port,
                                                      owner := o && decide (0 < s.sec.chain1.len), beat := s.now }] ∧
      (∀ p, p ≠ port → t.liveSessions p = s.liveSessions p) ∧
      t.sec.spdmReplies = s.sec.spdmReplies ++ [.signed (Config.mlKemEncap s.sec.draws key) sig]) ∧
  (∀ port key o s, Pre.attesting port s → 4 ≤ (s.liveSessions port).length →
    exec (.keyExchange port key o) s = .next (s.spdm .error)) ∧
  (∀ port n x s, Pre.attesting port s → s.session port n = some x →
    ∃ t, exec (.heartbeat port n) s = .next t ∧ SecFrame s t ∧ t.host = s.host ∧ t.mgmt = s.mgmt ∧
      (∃ y, t.session port n = some y ∧ y.beat = s.now) ∧
      t.sec.spdmReplies = s.sec.spdmReplies ++ [.number n] ∧ (∀ p, p ≠ port → t.liveSessions p = s.liveSessions p)) ∧
  (∀ port n x dw10 key s, Pre.attesting port s → s.session port n = some x → x.owner = true →
    keyFieldsOk dw10 key = true → ∃ t, exec (.programKeySet port n dw10 key) s = .next t ∧ SecFrame s t ∧
      t.host = s.host ∧ t.mgmt = s.mgmt ∧ t.sec.signRequired = bitOf dw10.toNat 0 ∧
      (bitOf dw10.toNat 3 = false →
        tget [] t.sec.programDigest (fld dw10 2 1) = Config.shake256 64 key.toBytes) ∧
      (∀ k, k ≠ fld dw10 2 1 → tget [] t.sec.programDigest k = tget [] s.sec.programDigest k) ∧
      t.sec.sessions = s.sec.sessions ∧ t.sec.spdmReplies = s.sec.spdmReplies ++ [.number n]) ∧
  (∀ port n dw10 key s, Pre.attesting port s → (∀ x, s.session port n = some x → x.owner = false) →
    exec (.programKeySet port n dw10 key) s = .next (s.spdm .error))

/-- NVMe-MI requests are served and permitted. -/
abbrev Pre.managed (s : State) : Prop := s.miServed = true ∧ permits .operational s.lifeCycle = true

/-- While the management core serves NVMe-MI, the two health polls are answered in every life-cycle state, and the
other requests where it permits operational commands, with an error elsewhere. A configuration reads as last
set. VPD holds 256 bytes: a write within it sets its bytes and no other, a read answers the window, and a
request beyond its end is an error. (What the structures hold is a free value, notes/assumptions/24.md.)
(Rests on parts of R408, R447, notes/assumptions/24.md.) -/
def Obligations.ManagementInterface : Prop :=
  (∀ n s, Pre.managed s → ∃ t, exec (.readNvmeMiDataStructure n) s = .next t ∧ CoreSame s t ∧ PostsNone s t ∧
    t.mgmt = { s.mgmt with miReplies := s.mgmt.miReplies ++
      [.data (Buf.ofBytes (Config.miStructure s.host.draws 0 n))] } ∧ t.host.draws = s.host.draws + 1) ∧
  (∀ s, s.miServed = true → ∃ t, exec .subsystemHealthStatusPoll s = .next t ∧ CoreSame s t ∧ PostsNone s t ∧
    t.mgmt = { s.mgmt with miReplies := s.mgmt.miReplies ++
      [.data (Buf.ofBytes (Config.miStructure s.host.draws 1 0))] } ∧ t.host.draws = s.host.draws + 1) ∧
  (∀ fn s, s.miServed = true → ∃ t, exec (.controllerHealthStatusPoll fn) s = .next t ∧ CoreSame s t ∧
    PostsNone s t ∧ t.mgmt = { s.mgmt with miReplies := s.mgmt.miReplies ++
      [.data (Buf.ofBytes (Config.miStructure s.host.draws 2 fn))] } ∧ t.host.draws = s.host.draws + 1) ∧
  (∀ i s, (i = .readNvmeMiDataStructure 0 ∨ i = .configurationGet 0 ∨ (∃ n v, i = .configurationSet n v) ∨
      (∃ o l, i = .vpdRead o l) ∨ ∃ o d, i = .vpdWrite o d) → s.miServed = true →
    permits .operational s.lifeCycle = false → exec i s = .next (s.mi .error)) ∧
  (∀ n v s, Pre.managed s → ∃ t, exec (.configurationSet n v) s = .next t ∧
    t.mgmt = { s.mgmt with miConfig := t.mgmt.miConfig, miReplies := s.mgmt.miReplies ++ [.number 0] } ∧
    (∀ k, k ≠ n → tget 0 t.mgmt.miConfig k = tget 0 s.mgmt.miConfig k) ∧ t.host = s.host ∧ CoreSame s t ∧
    exec (.configurationGet n) t = .next (t.mi (.number v.toNat))) ∧
  (∀ offset data s, Pre.managed s → offset + data.length ≤ 256 → ∃ t, exec (.vpdWrite offset data) s = .next t ∧
    t.mgmt = { s.mgmt with vpd := t.mgmt.vpd, miReplies := s.mgmt.miReplies ++ [.number 0] } ∧
    (∀ i, i < data.length → t.mgmt.vpd.get (offset + i) = data.getD i 0) ∧
    (∀ i, (i < offset ∨ offset + data.length ≤ i) → t.mgmt.vpd.get i = s.mgmt.vpd.get i) ∧ t.host = s.host ∧
    CoreSame s t) ∧
  (∀ offset len s, Pre.managed s → offset + len ≤ 256 → ∃ d, exec (.vpdRead offset len) s = .next (s.mi (.data d)) ∧
    d.len = len ∧ ∀ i, i < len → d.bytes.get i = s.mgmt.vpd.get (offset + i)) ∧
  (∀ offset len data s, Pre.managed s → 256 < offset + len → 256 < offset + data.length →
    exec (.vpdRead offset len) s = .next (s.mi .error) ∧ exec (.vpdWrite offset data) s = .next (s.mi .error))

/-- Nothing waits on the fabric and no codeword is due: no flit is held anywhere, no stream of a checkpoint runs, no
command is outstanding and no peer write waits. -/
abbrev Pre.calm (s : State) : Prop :=
  (∀ p, (s.port p).received = [] ∧ (s.port p).txQueue = [] ∧ (s.port p).owes = false) ∧ s.fabric.stranded = [] ∧
    s.ckpt.buddy = none ∧ s.ckpt.flash = none ∧ s.ckpt.serving = [] ∧ Pre.still s

/-- No RESYNC is due, no record waits for a port, and port `p` has nothing to send again or to report. -/
abbrev Pre.quiet (p : Nat) (s : State) : Prop :=
  s.linkLogic = true ∧ Pre.calm s ∧ s.fabric.coldResync = false ∧ s.fabric.resyncDue = [] ∧
    s.fabric.pendingEpoch = none ∧ (s.port p).replayBuf = [] ∧ (s.port p).sendNak = false ∧
    (s.port p).ackDue = false ∧ ∀ n ∈ (s.port p).freed, n = 0

/-- Nothing but the fabric has changed. -/
structure FabricOnly (s t : State) : Prop where
  pending : t.pending = s.pending
  mfg : t.mfg = s.mfg
  clk : t.clk = s.clk
  host : t.host = s.host
  benches : t.benches = s.benches
  regions : t.regions = s.regions
  ts : t.ts = s.ts
  flash : t.flash = s.flash
  scans : t.scans = s.scans
  ckpt : t.ckpt = s.ckpt
  sec : t.sec = s.sec
  mgmt : t.mgmt = s.mgmt
  power : t.power = s.power
  resets : t.resets = s.resets

/-- Nothing but port `p` has changed, what left through it, what arrived there, and that HD_FAB_ID is shown. -/
structure OnePort (p : Nat) (s t : State) : Prop where
  frame : FabricOnly s t
  others : ∀ q, q ≠ p → t.port q = s.port q
  fabric : t.fabric = { s.fabric with
    ports := t.fabric.ports, sent := t.fabric.sent, arrived := t.fabric.arrived, shown := t.fabric.shown }

/-- Port `p` has become `q`, and nothing has left or arrived. -/
abbrev PortIs (p : Nat) (q : Port) (s t : State) : Prop :=
  t.port p = q ∧ OnePort p s t ∧ t.fabric.sent = s.fabric.sent ∧ t.fabric.arrived = s.fabric.arrived

/-- Port `p` has become `q` and has then sent an idle codeword with what `q` has to report. -/
abbrev PortReports (p : Nat) (q : Port) (s t : State) : Prop :=
  t.port p = q.reported ∧ OnePort p s t ∧
    t.fabric.sent = q.codeword p ((q.nextSeq + 511) % 512) true q.report {} :: s.fabric.sent

/-- A port that may be trained. -/
abbrev Pre.trainable (p : Nat) (s : State) : Prop :=
  s.linkLogic = true ∧ (s.port p).disable = false ∧ ((s.port p).st = 0 ∨ (s.port p).st = 1 ∨ (s.port p).st = 7)

/-- Without a configuration in effect, during a cold reset or without power, these commands change nothing.
Training without a far end goes to DETECT; with one, the port takes the lanes that both ends offer and goes to
EXCHANGE, or to DETECT with fewer than two; a lane that fails for the third time in a row is retired and the
port goes to RETRAIN, or with fewer than two lanes left to RETIRED. With nothing waiting on the fabric:
EXCHANGE with the far end expected here, whose epoch is not lower, makes the port ACTIVE with its sequences at
0 and all credits; another far end makes it MISWIRED. RETRAIN of a port whose far end has been identified
returns to ACTIVE on the lanes that both ends offer, or falls to DETECT. On an ACTIVE port with nothing else
to send, a flit with a bad codeword or CRC or out of sequence is not taken, and an idle codeword with nak
leaves; an idle codeword received frees the replay buffer up to its acknowledgement and brings its credits; a
good flit in sequence for this module arrives and is acknowledged by an idle codeword, and one for another
module without a route is held. A replay sends the whole buffer again, and the eighth in a row retrains the
port. A port that is not ACTIVE and whose link the record holds as up is proposed down, and an ACTIVE one
whose link it holds as down is proposed up, as an event with the present epoch. An event not held yet is held,
with the present epoch for a base below it, and leaves on every ACTIVE port that can send at once. When the
wait ends, a held event of a link with this base changes the record and the next epoch begins. A STATE flit
with a higher epoch brings its record: to be entered later in EXCHANGE, at once on an ACTIVE port; one with an
epoch not higher changes nothing. (Rests on parts of R322, R324, R325, R326, R327, R329, R332, R334, R335.) -/
def Obligations.PortsAndEpochs : Prop :=
  (∀ i p q e m w f (b : Bool) x r l a s, (i = .portTrain p b m q ∨ i = .exchange p q m e ∨ i = .retrain p r ∨
      i = .flitReceive p w b f ∨ i = .replayTimeout p ∨ i = .alternatePortSwitch p ∨ i = .portDownPropose p ∨
      i = .event m q e x ∨ i = .epochEnter ∨ i = .state p e l a) → s.linkLogic = false → exec i s = .next s) ∧
  (∀ p failed far s, Pre.trainable p s → ∃ t, exec (.portTrain p false failed far) s = .next t ∧
    PortIs p { s.port p with st := 1, exchanged := false } s t) ∧
  (∀ p far m s, Pre.trainable p s → m = agreedMask (laneMask (lanesOf (15 - (s.port p).retiredLanes))) far →
    ∃ t, exec (.portTrain p true 0 far) s = .next t ∧ OnePort p s t ∧ (t.port p).activeLanes = m ∧
      (t.port p).st = (if m = 0 then 1 else 4) ∧ (t.port p).retiredLanes = (s.port p).retiredLanes) ∧
  (agreedMask 0xF 0xF = 0xF ∧ agreedMask 0xF 0xE = 0x6 ∧ agreedMask 0x7 0xD = 0x5 ∧ agreedMask 0x3 0x6 = 0) ∧
  (∀ p l far m s, Pre.trainable p s → l < 4 → (s.port p).retiredLanes < 16 → bitOf (s.port p).retiredLanes l = false →
    tget 0 (s.port p).eqFails l = 2 → m = (s.port p).retiredLanes + 2 ^ l →
    ∃ t, exec (.portTrain p true (2 ^ l) far) s = .next t ∧ (t.port p).retiredLanes = m ∧
      (t.port p).st = (if (lanesOf (15 - m)).length < 2 then 9 else 6) ∧
      t.mgmt.repairTotal = s.mgmt.repairTotal + (if (lanesOf (15 - m)).length < 2 then 2 else 1) ∧
      (∀ q, q ≠ p → t.port q = s.port q) ∧ t.ts = s.ts) ∧
  (∀ p i q e s, (s.port p).st = 4 → s.fabric.faces p i q e = true → s.fabric.epoch ≤ e → Pre.quiet p s →
    ∃ t, exec (.exchange p i q e) s = .next t ∧ PortIs p { s.port p with
      st := 5, farIdent := i, farPort := q, farEpoch := e, nextSeq := 0, expectSeq := 0, replayRun := 0,
      exchanged := true, credits := [64, 64, 64, 64], freed := [0, 0, 0, 0], switched := false } s t) ∧
  (∀ p i q e s, (s.port p).st = 4 → s.fabric.faces p i q e = false → s.linkLogic = true → (s.port p).received = [] →
    ∃ t, exec (.exchange p i q e) s = .next t ∧
      PortIs p { s.port p with st := 7, farIdent := i, farPort := q, farEpoch := e } s t) ∧
  (∀ p failed far m s, ((s.port p).st = 5 ∨ (s.port p).st = 6) → Pre.quiet p s →
    m = agreedMask (laneMask ((lanesOf (15 - (s.port p).retiredLanes)).filter fun l => !bitOf failed l)) far →
    ∃ t, exec (.retrain p (some (failed, far))) s = .next t ∧ PortIs p (t.port p) s t ∧
      (t.port p).retrains = (s.port p).retrains + 1 ∧ (t.port p).replayRun = 0 ∧
      (t.port p).st = (if m ≠ 0 ∧ (s.port p).exchanged then 5 else 1) ∧
      (t.port p).activeLanes = (if m ≠ 0 ∧ (s.port p).exchanged then m else 0)) ∧
  (∀ p s, ((s.port p).st = 5 ∨ (s.port p).st = 6) → s.linkLogic = true →
    ∃ t, exec (.retrain p none) s = .next t ∧ PortIs p { s.port p with
      retrains := (s.port p).retrains + 1, replayRun := 0, st := 1, activeLanes := 0, exchanged := false } s t) ∧
  (∀ p w f s, (s.port p).st = 5 → s.linkLogic = true → (s.port p).txQueue = [] →
    ∃ t, exec (.flitReceive p w false f) s = .next t ∧
      PortReports p { s.port p with uncorr := (s.port p).uncorr + 1, sendNak := true } s t) ∧
  (∀ p w f s, (s.port p).st = 5 → bitOf w.toNat 18 = false → bitOf w.toNat 19 = true → s.linkLogic = true →
    (s.port p).txQueue = [] → (s.port p).owes = false → flitOk f = true →
    ∃ t, exec (.flitReceive p w true f) s = .next t ∧
      PortIs p (((s.port p).acknowledge (bitsOf w.toNat 17 9)).credited f) s t) ∧
  (∀ p w f s, (s.port p).st = 5 → bitOf w.toNat 18 = false → bitOf w.toNat 19 = false → Pre.quiet p s →
    ∃ t, exec (.flitReceive p w true f) s = .next t ∧ OnePort p s t ∧
      ((bitsOf w.toNat 8 0 ≠ (s.port p).expectSeq ∨ flitOk f = false) →
        PortReports p { s.port p with sendNak := true } s t ∧ t.fabric.arrived = s.fabric.arrived) ∧
      (bitsOf w.toNat 8 0 = (s.port p).expectSeq → flitOk f = true → 1 ≤ (flitOf f).kind → (flitOf f).kind ≤ 5 →
        (t.port p).expectSeq = ((s.port p).expectSeq + 1) % 512 ∧ (t.port p).flitsRx = (s.port p).flitsRx + 1 ∧
        (t.port p).credits = ((s.port p).credited f).credits ∧
        (∃ c, t.fabric.sent = c :: s.fabric.sent ∧ c.port = p ∧ c.idle = true ∧ c.nak = false ∧
          c.ack = (s.port p).expectSeq) ∧
        (((flitOf f).kind = 3 ∨ (flitOf f).kind = 4 ∨ s.fabric.mine (flitOf f).dst = true) →
          t.fabric.arrived = s.fabric.arrived ++ [flitOf f] ∧ (t.port p).received = []) ∧
        ((flitOf f).kind ≠ 3 → (flitOf f).kind ≠ 4 → s.fabric.mine (flitOf f).dst = false →
          s.exitPort (flitOf f).dst = none →
          t.fabric.arrived = s.fabric.arrived ∧ (t.port p).received = [flitOf f]))) ∧
  (∀ p s, (s.port p).st = 5 → (s.port p).replayBuf ≠ [] → s.linkLogic = true →
    ∃ t, exec (.replayTimeout p) s = .next t ∧ OnePort p s t ∧
      (t.port p).replays = (s.port p).replays + 1 ∧ (t.port p).replayBuf = (s.port p).replayBuf ∧
      (t.port p).st = (if 7 ≤ (s.port p).replayRun then 6 else 5) ∧
      t.fabric.sent = ((s.port p).replayBuf.map fun w =>
        (s.port p).codeword p w.seq false w.credits w.flit).reverse ++ s.fabric.sent) ∧
  (∀ p s, (s.port p).st ≠ 5 → s.linkLogic = true → Pre.calm s →
    ∃ t, exec (.alternatePortSwitch p) s = .next t ∧ PortIs p { s.port p with switched := true } s t) ∧
  (∀ p k e s, (k = 1 ∧ (s.port p).st ≠ 5 ∧ s.linkLogic = true ∧ s.fabric.linkUp s.fabric.selfIdent p = true ∨
      k = 2 ∧ (s.port p).st = 5 ∧ s.fabric.linkUp s.fabric.selfIdent p = false) →
    e = { base := s.fabric.epoch, originator := s.fabric.ident, kind := k, subject := p + 16 * s.fabric.selfIdent } →
    e ∉ s.fabric.heldEvents →
    ∃ t, exec (if k = 1 then .portDownPropose p else .portUpPropose p) s = .next t ∧ FabricOnly s t ∧
      t.fabric.heldEvents = s.fabric.heldEvents ++ [e] ∧ t.fabric.waiting = true ∧
      t.fabric.epoch = s.fabric.epoch ∧ t.fabric.down = s.fabric.down) ∧
  (∀ b o k x e s, s.linkLogic = true →
    e = ({ base := Nat.max b s.fabric.epoch, originator := o, kind := k, subject := x } : FabEvent) →
    e ∉ s.fabric.heldEvents →
    ∃ t, exec (.event b o k x) s = .next t ∧ FabricOnly s t ∧ t.fabric.epoch = s.fabric.epoch ∧
      t.fabric.heldEvents = s.fabric.heldEvents ++ [e] ∧
      t.fabric.waiting = (s.fabric.waiting || decide (b ≤ s.fabric.epoch)) ∧
      ∀ p, p < 8 → (s.port p).st = 5 → (s.port p).txQueue = [] → (s.port p).replayBuf.length < 256 →
        0 < (s.port p).credits.getD 0 0 →
        ∃ c ∈ t.fabric.sent, c.port = p ∧ c.idle = false ∧ c.flit.kind = 3 ∧ c.flit.payload = e.payload) ∧
  (∀ e s, s.fabric.waiting = true → s.linkLogic = true → s.fabric.heldEvents = [e] → e.base = s.fabric.epoch →
    (e.kind = 1 ∨ e.kind = 2) → Pre.calm s → s.ckpt.autoTakeover = false →
    ∃ t, exec .epochEnter s = .next t ∧ FabricOnly s t ∧
      t.fabric.epoch = (s.fabric.epoch + 1) % 2 ^ 32 ∧ t.fabric.heldEvents = [] ∧ t.fabric.waiting = false ∧
      (∀ p, t.port p = s.port p) ∧ t.fabric.assumed = s.fabric.assumed ∧
      ∀ l, l ∈ t.fabric.down ↔
        (if l = s.fabric.linkKey (e.subject / 16) (e.subject % 16) then e.kind = 1 else l ∈ s.fabric.down)) ∧
  (∀ s, s.fabric.waiting = false → exec .epochEnter s = .next s) ∧
  (∀ p e down as s, (s.port p).st = 4 → s.fabric.epoch < e → s.linkLogic = true →
    ∃ t, exec (.state p e down as) s = .next t ∧ FabricOnly s t ∧
      t.fabric.pendingEpoch = some (e, (down.map fun x => s.fabric.linkKey x.1 x.2).eraseDups, as) ∧
      t.fabric.epoch = s.fabric.epoch ∧ t.fabric.down = s.fabric.down) ∧
  (∀ p e down s, (s.port p).st = 5 → s.fabric.epoch < e → s.linkLogic = true → Pre.calm s →
    s.ckpt.autoTakeover = false →
    ∃ t, exec (.state p e down s.fabric.assumed) s = .next t ∧ FabricOnly s t ∧ t.fabric.epoch = e ∧
      t.fabric.down = (down.map fun x => s.fabric.linkKey x.1 x.2).eraseDups ∧
      t.fabric.assumed = s.fabric.assumed ∧ t.fabric.pendingEpoch = none) ∧
  (∀ p e down as s, e ≤ s.fabric.epoch → exec (.state p e down as) s = .next s)

/-- The message of a DATA command, all of whose flits have arrived. -/
abbrev Pre.arrived (src seq addr : Nat) (p : Buf) (k : MsgKind) (s : State) : Prop :=
  s.linkLogic = true ∧ s.whole src { dst := s.fabric.ident, seq := seq, addr := addr, payload := p, kind := k } = true

/-- Fabric Configure with its fields in range is kept for the next cold reset and changes the fabric not at all.
With nothing else outstanding: a PEER_WINDOW_ACCEPT or release replaces or removes the window of its extent at
once, and a release of a LOST extent is refused with Invalid Field; a bind asks the remote end, with the
extent's length, and stays outstanding; a Peer Copy of served bytes of an own extent goes into the retransmit
store as messages of at most 65,536 bytes with those bytes, in order. A DATA message of which a flit has not
arrived, or while the link logic does not work, has no effect; one out of sequence writes nothing; the next
expected forwarded write is written exactly under the accept that covers it, or nowhere, and the expected
sequence rises by 1; a signal goes into the route queue of its bench, and with no execution it is counted as
dropped. A bind request in sequence changes nothing but the expected sequence. An ACK takes every message up
to it out of the store and ends what waited for it, with Access Denied where it was denied. A RESYNC sets the
expected sequence; one that names 0 starts the pair again. A retransmit timeout counts the messages to its
destination as sent again and doubles the interval up to 1 ms. A route that stays unavailable ends the
commands that wait for it with 0xC6. (Rests on parts of R323, R336, R337, R338, R340, R342, R343, R344, R345,
R389.) -/
def Obligations.PeerWindowsAndMessages : Prop :=
  (∀ c a b s, AcceptsPf c .operational s → fld a 31 18 = 0 → fld b 31 16 = 0 → fld b 15 0 ≤ 60000 →
    ∃ t, exec (.fabricConfigure c a b) s = .next t ∧ Posts s t { src := c, status := .success } ∧
      t.mgmt.norFabric = some (a, b) ∧ CoreSame s t) ∧
  (∀ c a b s, AcceptsPf c .operational s → (fld a 31 18 ≠ 0 ∨ fld b 31 16 ≠ 0 ∨ 60000 < fld b 15 0) →
    ∃ t, exec (.fabricConfigure c a b) s = .next t ∧ Posts s t { src := c, status := .invalidField } ∧
      HostFrame c s t) ∧
  (∀ c dw10 dw11 dw12 d j s, Pre.names c dw10 dw11 d j s → fld dw12 31 22 = 0 → (s.extent d j).st ≠ 3 →
    ∃ t, exec (.peerWindowAccept c dw10 dw11 dw12) s = .next t ∧ Posts s t { src := c, status := .success } ∧
      t.ts.windows = (s.ts.windows.filter fun w => !(w.die == d && w.slot == j)) ++
        [{ die := d, slot := j, accept := true, fn := c.fn, coord := fld dw12 11 0, index := fld dw12 15 12,
           logical := fld dw12 21 16 }] ∧
      t.ts.mem = s.ts.mem ∧ t.ts.dies = s.ts.dies ∧ t.fabric = s.fabric ∧ t.flash = s.flash) ∧
  (∀ c dw10 dw11 d j s, Pre.names c dw10 dw11 d j s →
    ∃ t, exec (.peerWindowRelease c dw10 dw11) s = .next t ∧
      Posts s t { src := c, status := if (s.extent d j).st = 3 then .invalidField else .success } ∧
      t.ts.windows = (if (s.extent d j).st = 3 then s.ts.windows
        else s.ts.windows.filter fun w => !(w.die == d && w.slot == j)) ∧
      t.ts.mem = s.ts.mem ∧ t.ts.dies = s.ts.dies ∧ t.fabric = s.fabric ∧ t.flash = s.flash) ∧
  (∀ c dw10 dw11 dw12 dw13 dw14 dw15 d j r s, Pre.names c dw10 dw11 d j s → addrOf dw12 dw13 = some r →
    isBase r = true → fld dw14 31 12 = 0 → (s.extent d j).st ≠ 3 →
    (dw15 = 0xFFFFFFFF#32 ∨ dw15.toNat % 8 = 0 ∧ dw15.toNat < (s.extent d j).length * 65536) →
    ∃ t, exec (.peerWindowBind c dw10 dw11 dw12 dw13 dw14 dw15) s = .next t ∧ PostsNone s t ∧
      t.host.ops = [{ id := s.host.nextOp, src := c, kind := .peerBind d j (fld dw14 11 0), since := s.now }] ∧
      t.ts.windows = (s.ts.windows.filter fun w => !(w.die == d && w.slot == j)) ++
        [{ die := d, slot := j, accept := false, fn := c.fn, coord := fld dw14 11 0, remote := r,
           signalAt := if dw15 = 0xFFFFFFFF#32 then none else some dw15.toNat }] ∧
      (∃ m, t.fabric.store = s.fabric.store ++ [m] ∧ m.dst = fld dw14 11 0 ∧ m.addr = r ∧ m.payload = Buf.none ∧
        m.kind = .bind (s.extent d j).length ∧ m.op = some s.host.nextOp ∧
        m.seq = tget 0 s.fabric.sendSeq m.dst) ∧
      t.ts.mem = s.ts.mem ∧ t.flash = s.flash) ∧
  (∀ c dw10 dw11 dw12 dw13 dw14 dw15 a r s, Accepts c .operational s → Pre.idle s → addrOf dw10 dw11 = some a →
    addrOf dw12 dw13 = some r → Pre.served c.fn a dw14.toNat s → dw14.toNat ≤ 2097152 → fld dw15 31 12 = 0 →
    (s.extent (addrDie a) (addrSlot a)).owner = c.fn → r + dw14.toNat ≤ 2 ^ 48 →
    s.storeRoom (addrDie a) dw14.toNat = true →
    ∃ t, exec (.peerCopy c dw10 dw11 dw12 dw13 dw14 dw15) s = .next t ∧ PostsNone s t ∧ t.ts.mem = s.ts.mem ∧
      t.host.ops = [{ id := s.host.nextOp, src := c, since := s.now,
                      kind := .peerCopy a r dw14.toNat (fld dw15 11 0) true }] ∧
      t.fabric.store.length = s.fabric.store.length + ceilDiv dw14.toNat 65536 ∧
      (∀ i, i < ceilDiv dw14.toNat 65536 → ∃ m, t.fabric.store[s.fabric.store.length + i]? = some m ∧
        m.dst = fld dw15 11 0 ∧ m.addr = r + 65536 * i ∧ m.op = some s.host.nextOp ∧ m.kind = .write ∧
        m.payload.len = Nat.min 65536 (dw14.toNat - 65536 * i) ∧
        ∀ x, x < m.payload.len → m.payload.bytes.get x = s.ts.mem.get (a + 65536 * i + x))) ∧
  (∀ src seq addr p k s, (s.linkLogic = false ∨
      s.whole src { dst := s.fabric.ident, seq := seq, addr := addr, payload := p, kind := k } = false) →
    exec (.data src seq addr p k) s = .next s) ∧
  (∀ src seq addr p k s, Pre.arrived src seq addr p k s → seq ≠ tget 0 s.fabric.expectSeq src →
    ∃ t, exec (.data src seq addr p k) s = .next t ∧ t.ts = s.ts ∧ t.host = s.host ∧ t.benches = s.benches ∧
      t.ckpt = { s.ckpt with heldLost := t.ckpt.heldLost } ∧
      t.fabric.expectSeq = s.fabric.expectSeq ∧ t.fabric.dupDrop =
        (if seqLe seq (tget 0 s.fabric.expectSeq src) then s.fabric.dupDrop + 1 else s.fabric.dupDrop)) ∧
  (∀ src seq addr p k s, Pre.arrived src seq addr p k s → seq = tget 0 s.fabric.expectSeq src → Pre.still s →
    ((k = .write ∨ k = .signal) ∧ s.acceptFor src addr p.len = none ∨ ∃ n, k = .bind n) →
    ∃ t, exec (.data src seq addr p k) s = .next t ∧ t.ts = s.ts ∧
      t.host = s.host ∧ t.benches = s.benches ∧ tget 0 t.fabric.expectSeq src = (seq + 1) % 2 ^ 32 ∧
      t.fabric.heldWrites = []) ∧
  (∀ src seq addr p k w s, Pre.arrived src seq addr p k s → seq = tget 0 s.fabric.expectSeq src → Pre.idle s →
    (k = .write ∨ k = .signal) → s.acceptFor src addr p.len = some w → Pre.writes w.fn addr p.len s →
    p.bytes.wf = true → (k = .write ∨ s.signalBench w = none) →
    ∃ t, exec (.data src seq addr p k) s = .next t ∧ tget 0 t.fabric.expectSeq src = (seq + 1) % 2 ^ 32 ∧
      (∀ i, i < p.len → t.ts.mem.get (addr + i) = p.bytes.get i) ∧
      (∀ x, x < addr ∨ addr + p.len ≤ x → t.ts.mem.get x = s.ts.mem.get x) ∧
      t.fabric.sigDrop = (if k = .signal then s.fabric.sigDrop + 1 else s.fabric.sigDrop) ∧
      t.benches = s.benches ∧ t.flash = s.flash) ∧
  (∀ src seq addr p w b s, Pre.arrived src seq addr p .signal s → seq = tget 0 s.fabric.expectSeq src → Pre.idle s →
    s.acceptFor src addr p.len = some w → Pre.writes w.fn addr p.len s → p.bytes.wf = true →
    s.signalBench w = some b → (s.bench b).seq.st ≠ .ended → (s.bench b).seq.routeQueue.length < 64 →
    ∃ t, exec (.data src seq addr p .signal) s = .next t ∧ tget 0 t.fabric.expectSeq src = (seq + 1) % 2 ^ 32 ∧
      (∀ i, i < p.len → t.ts.mem.get (addr + i) = p.bytes.get i) ∧
      (t.bench b).seq.routeQueue = (s.bench b).seq.routeQueue ++ [p.bytes.dword 0] ∧
      (t.bench b).routePosted = (s.bench b).routePosted + 1 ∧ (∀ x, x ≠ b → t.bench x = s.bench x) ∧
      t.fabric.sigDrop = s.fabric.sigDrop) ∧
  (∀ src cum s, s.linkLogic = true → Pre.calm s →
    (∀ m ∈ s.fabric.store, m.op = none ∧ (m.kind = .write ∨ m.kind = .signal)) →
    ∃ t, exec (.ack src cum false false) s = .next t ∧ FabricOnly s t ∧
      t.fabric.store = s.fabric.store.filter (fun m => !(m.dst == src && seqLe m.seq cum)) ∧
      tget 20 t.fabric.interval src = 20 ∧ t.fabric.sendSeq = s.fabric.sendSeq) ∧
  (∀ o m denied s, s.linkLogic = true → s.host.ops = [o] → s.fabric.heldWrites = [] → s.fabric.store = [m] →
    (m.kind = .write ∨ m.kind = .signal) → m.op = some o.id → (s.ctl o.src.fn).rdy = true → s.ckpt.buddy = none →
    s.ckpt.serving = [] →
    ∃ t, exec (.ack m.dst m.seq false denied) s = .next t ∧ t.fabric.store = [] ∧ t.host.ops = [] ∧
      Posts s t { src := o.src, status := if denied then .accessDenied else .success } ∧ t.ts = s.ts ∧
      t.benches = s.benches) ∧
  (∀ o m w n denied s, s.linkLogic = true → s.host.ops = [o] → s.fabric.heldWrites = [] → s.fabric.store = [m] →
    m.kind = .bind n → m.op = some o.id → (s.ctl o.src.fn).rdy = true → s.ckpt.buddy = none → s.ckpt.serving = [] →
    s.ts.windows = [w] →
    w.accept = false → w.coord = m.dst → w.remote = m.addr → w.fn = m.fn → w.confirmed = false →
    ∃ t, exec (.ack m.dst m.seq false denied) s = .next t ∧ t.fabric.store = [] ∧
      Posts s t { src := o.src, status := if denied then .accessDenied else .success } ∧
      t.ts.windows = (if denied then [] else [{ w with confirmed := true }]) ∧ t.ts.mem = s.ts.mem) ∧
  (∀ src n s, s.linkLogic = true → n ≠ 0 → ∃ t, exec (.resync src n) s = .next t ∧
    FabricOnly s t ∧ tget 0 t.fabric.expectSeq src = n ∧ t.fabric.sendSeq = s.fabric.sendSeq ∧
    (∀ d, d ≠ src → tget 0 t.fabric.expectSeq d = tget 0 s.fabric.expectSeq d) ∧ t.fabric.store = s.fabric.store) ∧
  (∀ src s, s.linkLogic = true → Pre.still s → (∀ m ∈ s.fabric.store, m.exec = none) →
    ∃ t, exec (.resync src 0) s = .next t ∧
    tget 0 t.fabric.expectSeq src = 0 ∧ tget 0 t.fabric.sendSeq src = 0 ∧
    (∀ d, d ≠ src → tget 0 t.fabric.expectSeq d = tget 0 s.fabric.expectSeq d ∧
      tget 0 t.fabric.sendSeq d = tget 0 s.fabric.sendSeq d) ∧
    t.fabric.store = s.fabric.store.filter (fun m => !(m.dst == src)) ∧
    t.ts.windows = s.ts.windows.filter (fun w => w.accept || w.coord != src) ∧ t.ts.mem = s.ts.mem ∧
    t.host = s.host) ∧
  (∀ d s, (∀ m ∈ s.fabric.store, m.dst ≠ d) → exec (.retransmitTimeout d) s = .next s) ∧
  (∀ d s, (∃ m ∈ s.fabric.store, m.dst = d) → ∃ t, exec (.retransmitTimeout d) s = .next t ∧
    t.fabric.store = s.fabric.store ∧ tget 20 t.fabric.interval d = Nat.min 1000 (2 * tget 20 s.fabric.interval d) ∧
    t.fabric.e2eRetx = s.fabric.e2eRetx +
      BitVec.ofNat 64 (s.fabric.store.filter fun m => m.dst == d).length ∧ t.ts = s.ts ∧ t.host = s.host ∧
    t.benches = s.benches) ∧
  (∀ d s, s.routeless d = false → exec (.routeTimeout d) s = .next s) ∧
  (∀ d o a r n sent s, s.routeless d = true → s.host.ops = [o] → s.fabric.heldWrites = [] →
    o.kind = .peerCopy a r n d sent →
    (s.ctl o.src.fn).rdy = true → s.host.programs = [] → d ≠ s.fabric.partner →
    ∃ t, exec (.routeTimeout d) s = .next t ∧ Posts s t { src := o.src, status := .vendor 0xC6 } ∧
      t.host.ops = [] ∧ d ∈ t.fabric.unavailable ∧ t.ts.mem = s.ts.mem ∧ t.benches = s.benches)

/-- A Direct media command of a PF, outside DEPLOYED, on block `b` of role 3 that dword 10 names. -/
abbrev Pre.direct (c : Src) (dw10 : Word) (b : Nat) (s : State) : Prop :=
  AcceptsPf c .direct s ∧ s.lifeCycle ≠ .deployed ∧ fld dw10 31 23 = 0 ∧ fld dw10 22 0 = b ∧ s.roleOf b = 3

/-- Everything but the flash layer, the host port and the management core is as it was, and the map too. -/
structure MediaFrame (s t : State) : Prop where
  map : t.flash.map = s.flash.map
  ts : t.ts = s.ts
  benches : t.benches = s.benches
  scans : t.scans = s.scans
  fabric : t.fabric = s.fabric
  ckpt : t.ckpt = s.ckpt
  sec : t.sec = s.sec
  clk : t.clk = s.clk
  power : t.power = s.power
  namespaces : t.host.namespaces = s.host.namespaces

/-- From a PF outside DEPLOYED, on a block of role 3: a pSLC program of 16 KiB writes the page of a wordline not
programmed before and no other (programmed again it holds free bytes, the model's own choice,
notes/assumptions/114.md), a QLC program of 64 KiB the four pages of the next wordline; a read answers the
page programmed, or what its raw codewords hold where it asks for them, and of a QLC wordline not yet settled
Command Sequence Error; an erase empties the block, and no other page, and counts. The die's status is
returned in dword 0. On another block, in DEPLOYED or from a VF the command ends with Invalid Command Opcode
and changes nothing. A reserve takes one block of each plane in service where 4 % of the pool stays free; a
release erases every role-3 block and returns it to the pool. None of them changes the map. (Rests on parts of
R259, R260, R288, R310, R311, R312, notes/assumptions/114.md.) -/
def Obligations.DirectMedia : Prop :=
  (∀ c dw10 dw11 data st b s, Pre.direct c dw10 b s → fld dw11 15 8 = 0 → fld dw11 31 17 = 0 →
    bitOf dw11.toNat 16 = false → data.len = 16384 → data.bytes.wf = true →
    ∃ t, exec (.directProgram c dw10 dw11 data st) s = .next t ∧ MediaFrame s t ∧
      Posts s t { src := c, status := .success, dw0 := st } ∧
      (thas s.flash.media (1024 * b + fld dw11 7 0) = false → ∀ i, i < 16384 → Mem.get (tget [] t.flash.media (1024 * b + fld dw11 7 0)) i = data.bytes.get i) ∧
      (∀ p, p ≠ 1024 * b + fld dw11 7 0 → tget [] t.flash.media p = tget [] s.flash.media p) ∧
      (t.blk b).nextPage = Nat.max (s.blk b).nextPage (fld dw11 7 0 + 1) ∧ (t.blk b).qlc = false) ∧
  (∀ c dw10 dw11 data st b w s, Pre.direct c dw10 b s → fld dw11 15 8 = 0 → fld dw11 31 17 = 0 →
    bitOf dw11.toNat 16 = true → data.len = 65536 → data.bytes.wf = true → w = fld dw11 7 0 →
    (s.blk b).nextPage = 4 * w → ∃ t, exec (.directProgram c dw10 dw11 data st) s = .next t ∧ MediaFrame s t ∧
      Posts s t { src := c, status := .success, dw0 := st } ∧
      (∀ k i, k < 4 → i < 16384 →
        Mem.get (tget [] t.flash.media (1024 * b + 4 * w + k)) i = data.bytes.get (16384 * k + i)) ∧
      (∀ p, (p < 1024 * b + 4 * w ∨ 1024 * b + 4 * w + 4 ≤ p) → tget [] t.flash.media p = tget [] s.flash.media p) ∧
      (t.blk b).nextPage = 4 * w + 4 ∧ (t.blk b).qlc = true) ∧
  (∀ c dw10 dw11 data st b s, Pre.direct c dw10 b s → bitOf dw11.toNat 16 = true →
    (s.blk b).nextPage ≠ 4 * fld dw11 7 0 → ∃ t, exec (.directProgram c dw10 dw11 data st) s = .next t ∧
      Posts s t { src := c, status := .invalidField } ∧ HostFrame c s t) ∧
  (∀ c dw10 dw11 dw12 b p w s, Pre.direct c dw10 b s → fld dw11 15 10 = 0 → fld dw11 31 17 = 0 → fld dw12 31 1 = 0 →
    w = fld dw11 7 0 → (bitOf dw11.toNat 16 = false → fld dw11 9 8 = 0) →
    p = 1024 * b + (if bitOf dw11.toNat 16 then 4 * w + fld dw11 9 8 else w) →
    ∃ t, exec (.directRead c dw10 dw11 dw12) s = .next t ∧ MediaFrame s t ∧ t.flash.media = s.flash.media ∧
      (bitOf dw11.toNat 16 = true → (s.blk b).settled w = false →
        Posts s t { src := c, status := .commandSequenceError } ∧ t.flash = s.flash) ∧
      ((bitOf dw11.toNat 16 = true → (s.blk b).settled w = true) → (t.blk b).reads = (s.blk b).reads + 1 ∧
        ∃ d, Posts s t { src := c, status := .success,
                         reply := .data (Buf.ofBytes (if bitOf dw12.toNat 0 then Config.rawCodewords d else d)) } ∧
          (thas s.flash.media p = true → d = Mem.getBytes (tget [] s.flash.media p) 0 16384))) ∧
  (∀ c dw10 st b s, Pre.direct c dw10 b s → ∃ t, exec (.directErase c dw10 st) s = .next t ∧ MediaFrame s t ∧
    Posts s t { src := c, status := .success, dw0 := st } ∧
    (∀ p, pageBlock p = b → thas t.flash.media p = false) ∧
    (∀ p, pageBlock p ≠ b → tget [] t.flash.media p = tget [] s.flash.media p) ∧
    (t.blk b).nextPage = 0 ∧ t.roleOf b = 3 ∧
    (t.blk b).pslcErases + (t.blk b).qlcErases = (s.blk b).pslcErases + (s.blk b).qlcErases + 1) ∧
  (∀ i c dw10 s, ((∃ x d st, i = .directProgram c dw10 x d st) ∨ (∃ x y, i = .directRead c dw10 x y) ∨
      (∃ st, i = .directErase c dw10 st)) → Accepts c .direct s →
    (isPf c.fn = false ∨ s.lifeCycle = .deployed ∨ (fld dw10 31 23 = 0 ∧ s.roleOf (fld dw10 22 0) ≠ 3)) →
    ∃ t, exec i s = .next t ∧ Posts s t { src := c, status := .invalidOpcode } ∧ HostFrame c s t) ∧
  (∀ c n s, AcceptsPf c .direct s → s.lifeCycle ≠ .deployed → Pre.noAers s → s.directBlocks = [] →
    n = 4 * s.diesInService → 4 * (s.poolBlocks - n) ≤ 100 * (s.poolFree - n) →
    ∃ t, exec (.directMediaReserve c 1) s = .next t ∧ MediaFrame s t ∧
      Posts s t { src := c, status := .success, dw0 := BitVec.ofNat 32 s.reserveBlocks.length } ∧
      ∀ b, t.roleOf b = 3 ↔ b ∈ s.reserveBlocks) ∧
  (∀ c s, AcceptsPf c .direct s → s.lifeCycle ≠ .deployed → Pre.noAers s →
    ∃ t, exec (.directMediaReserve c 0) s = .next t ∧ MediaFrame s t ∧
      Posts s t { src := c, status := .success, dw0 := BitVec.ofNat 32 s.directBlocks.length } ∧
      t.directBlocks = [] ∧ (∀ b ∈ s.directBlocks, (t.blk b).st = 1 ∧ ∀ p, pageBlock p = b →
        thas t.flash.media p = false))

/-- What a retirement of flash leaves: the map, the contents of the pages and of the tensor space, and everything that
is no part of the flash layer but the host port, the management core and the stacks of scans' pages. -/
structure RetireFrame (s t : State) : Prop where
  map : t.flash.map = s.flash.map
  media : t.flash.media = s.flash.media
  mem : t.ts.mem = s.ts.mem
  benches : t.benches = s.benches
  fabric : t.fabric = s.fabric
  ckpt : t.ckpt = s.ckpt
  sec : t.sec = s.sec
  power : t.power = s.power
  namespaces : t.host.namespaces = s.host.namespaces

/-- One block with exactly one IU to move, `e`, and room for its copy: the write cache folds it. -/
abbrev Pre.folding (b : Nat) (e : Nat × Nat) (s : State) : Prop :=
  (s.blk b).st = 0 ∧ (s.blk b).qlc = false ∧ s.roleOf b = 0 ∧ s.isOpen b = false ∧ s.mayReclaim = true ∧
    s.folds = true ∧ s.movable b = [e]

/-- The page `p` may be read by the patrol now. -/
abbrev Pre.patrols (p : Nat) (s : State) : Prop :=
  s.flash.mounted = true ∧ s.backgroundWaits = false ∧ p ∈ s.patrolPages ∧ p ∉ s.flash.patrolRead ∧
    s.patrolDue = true

/-- A page read without escalation is counted once and changes no contents; one that escalates makes its block due
for refresh; one that fails marks unreadable the logical blocks whose codewords failed and no other. Refresh,
garbage collection, folding and the patrol leave the map as it is until their records are durable: an empty
victim without pins is erased, or retired after three strikes; a copy whose read-back corrects at most 48 bits
in each codeword queues its RELOCATE record, and another strikes its block; an erase queues ERASE_DONE with
its counts; a fold of one IU queues its FOLD record where its read-back passes and strikes the block of the
copy where it does not. The patrol reads a page that is due, and its pass ends with the last one and event
0x09. Below 2 % free the throttle starts. The parity page of a stripe is the exclusive or of its data pages
where its read-back passes. A retired die or stack leaves service and rebuilds, and a rebuild with nothing
left to move ends. With the spare used up, or no two stacks for the journal, the flash is read-only. Mount
builds the map from the last checkpoint and the records after it; a page that has settled and is no parity
page keeps its contents where no sample escalates. (Rests on parts of R261, R263, R265, R267, R268, R274,
R275, R276, R277, R280, R281, R286.) -/
def Obligations.FlashBackgroundWork : Prop :=
  (∀ p step bits b s, step < 2 → bits ≤ 96 → b = pageBlock p →
    ∃ t, exec (.flashReadComplete p step bits) s = .next t ∧ MediaFrame s t ∧ t.flash.media = s.flash.media ∧
      t.host = s.host ∧
      (t.stack (s.pageStack p)).corrected = (s.stack (s.pageStack p)).corrected + BitVec.ofNat 64 bits ∧
      (p ∉ s.flash.reading → (t.blk b).reads = (s.blk b).reads + 1 ∧
        (t.blk b).refresh = ((s.blk b).refresh ||
          decide ((if (s.blk b).qlc then 50000 else 500000) ≤ (s.blk b).reads + 1)) ∧
        (t.stack (s.pageStack p)).reads = (s.stack (s.pageStack p)).reads + 1) ∧
      (p ∈ s.flash.reading → t.blk b = s.blk b ∧ t.flash.reading = s.flash.reading.erase p ∧
        (t.stack (s.pageStack p)).reads = (s.stack (s.pageStack p)).reads)) ∧
  (∀ p step bits s, (2 ≤ step ∨ 96 < bits) → step < 5 → ∃ t, exec (.flashReadComplete p step bits) s = .next t ∧
    MediaFrame s t ∧ (t.blk (pageBlock p)).refresh = true) ∧
  (∀ p k mask s, s.keyAt p = some k → k / 2 ^ 40 ≠ 0 →
    ∃ t, exec (.flashReadComplete p 5 mask) s = .next t ∧ MediaFrame s t ∧
    t.flash.media = s.flash.media ∧
    ∀ x, x ∈ t.flash.unreadable ↔
      (x ∈ s.flash.unreadable ∨ ∃ i, i < 4 ∧ bitOf mask i = true ∧ x = (k / 2 ^ 40, 4 * (k % 2 ^ 40) + i))) ∧
  (∀ b s, ((s.blk b).readDue = true ∨ (s.blk b).refresh = true) →
    ∃ t, exec (.readCountRefresh b) s = .next t ∧ MediaFrame s t ∧ (t.blk b).refresh = true) ∧
  (∀ b s, (s.blk b).readDue = false → (s.blk b).refresh = false → exec (.readCountRefresh b) s = .next s) ∧
  (∀ p step bits s, Pre.patrols p s → p ∉ s.flash.reading → step < 2 → bits ≤ 96 →
    ∃ t, exec (.patrolRead p step bits) s = .next t ∧ MediaFrame s t ∧ t.flash.media = s.flash.media ∧
      (t.blk (pageBlock p)).reads = (s.blk (pageBlock p)).reads + 1 ∧
      ((∃ q ∈ s.patrolPages, q ≠ p ∧ q ∉ s.flash.patrolRead) →
        t.flash.patrolRead = p :: s.flash.patrolRead ∧ t.flash.events = s.flash.events) ∧
      ((∀ q ∈ s.patrolPages, q = p ∨ q ∈ s.flash.patrolRead) → t.flash.patrolRead = [] ∧
        t.flash.events = ((0x09, 0xFF, 0xFF, s.flash.jseq) :: s.flash.events).take 16)) ∧
  (∀ p step bits s, (p ∉ s.patrolPages ∨ p ∈ s.flash.patrolRead ∨ s.patrolDue = false) →
    exec (.patrolRead p step bits) s = .next s) ∧
  (∀ b s, s.mayReclaim = true → s.victim = some b → s.validIn b = [] → s.unpinned b = true →
    exec .garbageCollection s = .next (s.queueRecs none
      [if 3 ≤ (s.blk b).strikes then JRec.retire 0 b else JRec.eraseIntent b])) ∧
  (∀ b s, s.mayReclaim = true → s.victim = some b → s.validIn b ≠ [] →
    ∃ t, exec .garbageCollection s = .next t ∧ MediaFrame s t ∧ (t.blk b).refresh = true) ∧
  (∀ r rest worst s, s.flash.relocs = r :: rest → ∃ t, exec (.gcRelocate worst) s = .next t ∧ MediaFrame s t ∧
    ((∃ n, worst = some n ∧ n ≤ 48) → t.flash.relocs = rest ∧ t.flash.media = s.flash.media ∧
      t.flash.queued = s.flash.queued ++ [(none, [.relocate r.key r.old r.new])]) ∧
    ((∀ n, worst = some n → 48 < n) → t.flash.queued = s.flash.queued ∧
      (t.blk (pageBlock r.new)).strikes = (s.blk (pageBlock r.new)).strikes + 1)) ∧
  (∀ b s, (s.blk b).erasing = true → s.recordQueued b = false → exec (.flashEraseComplete b) s =
    .next (s.queueRecs none [.eraseDone b ((s.blk b).pslcErases + b2n (!(s.blk b).qlc))
      ((s.blk b).qlcErases + b2n (s.blk b).qlc)])) ∧
  (∀ b e u new x s, Pre.folding b e s →
    (s.countRead e.2).copyQlc (tget [] s.flash.media e.2) = some (u, new, x) →
    ∃ t, exec (.fold b) s = .next t ∧ MediaFrame s t ∧ tget [] t.flash.media new = tget [] s.flash.media e.2 ∧
      (readBackOk (Config.readBack s.flash.readBackDraws) = true →
        t.flash.queued = s.flash.queued ++ [(none, [.fold e.1 e.2 new])]) ∧
      (readBackOk (Config.readBack s.flash.readBackDraws) = false → t.flash.queued = s.flash.queued ∧
        (t.blk (pageBlock new)).strikes = (s.blk (pageBlock new)).strikes + 1)) ∧
  (∀ s, s.flash.freePct < 2 → s.flash.throttling = false → s.flash.mounted = true →
    ∃ t, exec .writeThrottle s = .next t ∧ MediaFrame s t ∧ t.flash.throttling = true ∧ t.flash.credit = 0 ∧
      t.flash.events = ((0x07, 0xFF, 0xFF, s.flash.jseq) :: s.flash.events).take 16) ∧
  (∀ x u p ps s, x ∈ s.flash.stripes → (∀ y ∈ s.flash.stripes, y.id = x.id → y = x) → x.parity = 0 → x.members ≠ [] →
    (∀ m ∈ x.members, Mem.wf (tget [] s.flash.media m) = true) → s.takeUnit x.parityStack = some (u, p :: ps) →
    ∃ t, exec (.stripeParityProgrammed x.id) s = .next t ∧ t.flash.map = s.flash.map ∧ t.ts = s.ts ∧
      t.host.ops = s.host.ops ∧ (∀ q, q ≠ p → tget [] t.flash.media q = tget [] s.flash.media q) ∧
      (readBackOk (Config.readBack s.flash.readBackDraws) = true →
        (∀ i, Mem.get (tget [] t.flash.media p) i =
          x.members.foldl (fun (a : Byte) m => a ^^^ Mem.get (tget [] s.flash.media m) i) 0) ∧
        (∀ y ∈ t.flash.stripes, y.id = x.id → y.parity = p + 1 ∧ y.members = x.members)) ∧
      (readBackOk (Config.readBack s.flash.readBackDraws) = false → t.flash.media = s.flash.media ∧
        t.flash.stripes = s.flash.stripes ∧
        (t.blk (pageBlock p)).strikes = (s.blk (pageBlock p)).strikes + 1)) ∧
  (∀ k d s, s.dieServes k d = true → d < s.diesPerStack → ∃ t, exec (.dieRetire k d) s = .next t ∧ RetireFrame s t ∧
    t.dieServes k d = false ∧ (t.stack k).rebuilding = true ∧ (t.stack k).st = 1 ∧
    (∀ j, j ≠ d → t.dieServes k j = s.dieServes k j) ∧ (∀ j, j ≠ k → t.stack j = s.stack j)) ∧
  (∀ k d s, s.dieServes k d = false → exec (.dieRetire k d) s = .next s) ∧
  (∀ k s, (∃ d, d < s.diesPerStack ∧ s.dieServes k d = true) → ∃ t, exec (.stackRetire k) s = .next t ∧
    RetireFrame s t ∧ (t.stack k).rebuilding = true ∧
    (∀ d, d < s.diesPerStack → t.dieServes k d = false) ∧ (∀ j, j ≠ k → t.stack j = s.stack j)) ∧
  (∀ k s, (s.stack k).rebuilding = true → s.toRebuild k = [] →
    ∃ t, exec (.rebuildComplete k) s = .next t ∧ MediaFrame s t ∧ t.flash.media = s.flash.media ∧
      (t.stack k).rebuilding = false ∧ (t.stack k).dieRetired = (s.stack k).dieRetired ∧
      (t.stack k).st = (if s.stackGone k then 2 else 0) ∧
      t.flash.events = (if s.stackGone k then ((0x05, k, 0xFF, s.flash.jseq) :: s.flash.events).take 16
        else s.flash.events)) ∧
  (∀ s, (s.spareAtManufacture ≤ s.blocksLost ∨ s.journalStack = none) →
    ∃ t, exec .readOnlyEndOfLife s = .next t ∧ MediaFrame s t ∧ t.flash.media = s.flash.media ∧
      t.flash.readOnly = true) ∧
  (∀ s, s.blocksLost < s.spareAtManufacture → s.journalStack.isSome = true →
    exec .readOnlyEndOfLife s = .next s) ∧
  (∀ sample s, s.flash.mounted = false → s.sec.booted = true → s.power.on = true → s.power.shutdown = false →
    (∀ r ∈ s.resets, r.scope < 3) → (∀ x ∈ s.flash.blocks, x.2.erasing = false) → (∀ e ∈ sample, e.2.1 < 5) →
    ∃ t, exec (.mount sample) s = .next t ∧ t.flash.mounted = true ∧ t.flash.map = s.replayMap ∧
      t.flash.journal = s.flash.journal ∧ t.flash.pins = [] ∧ t.ts = s.ts ∧
      t.host.namespaces = s.host.namespaces ∧
      t.flash.patrolFull = sample.any (fun e => s.sampleBlocks.contains (pageBlock e.1) && decide (2 ≤ e.2.1)) ∧
      ((∀ e ∈ sample, e.2.1 < 2 ∧ e.2.2 ≤ 96) → ∀ p, s.pageSettled p = true →
        (∀ x ∈ s.flash.stripes, x.parity ≠ p + 1) → tget [] t.flash.media p = tget [] s.flash.media p))

/-- A stream can read tile `x` from T2 at once: no shadow copies, nothing poisoned, no word in error. -/
abbrev Pre.streamable (x : Nat × Nat × Nat) (s : State) : Prop :=
  s.ckpt.shadow = [] ∧ (s.extent x.1 x.2.1).servedFrom x.2.2 = 2 ∧ (s.die x.1).poison = [] ∧
    s.mgmt.planted = []

/-- No cut, restore or takeover is under way and no stream runs. -/
abbrev Pre.settled (s : State) : Prop :=
  s.ckpt.phase = 0 ∧ s.ckpt.buddy = none ∧ s.ckpt.flash = none ∧ s.ckpt.serving = []

/-- A read-back that fails: a codeword that does not decode, or with more than 48 bits corrected. -/
abbrev Pre.badRead (worst : Option Nat) : Prop := ∀ n, worst = some n → 48 < n

/-- Reserve and Configure take values in range, the set takes effect with its manifest, and each refuses
otherwise. A cut of a higher number of an attached set begins its first steps and stays outstanding; CUT_DUE
begins the next cut in automatic mode, or is raised once. CUT_PROTECT acts only when nothing stands in the
way: it clears the dirty bits of the set, protects what is sent, changes no byte, and completes the command;
without a live partner the tiles stay owed; with one, a send set of one tile goes out as a whole message
followed by the recorded set and the commit. A page of the flash stream that reads back with at most 48 bits
corrected in each codeword advances it, its fourth page takes the tile as of the cut into the other slot, the
third failure in a row abandons it, and the commit record makes the cut the latest flash checkpoint. A wait
for a cut that has ended completes at once, and one for a cut whose stream runs stays outstanding. A restore
of a set of one saved extent that still stands writes every tile of it as of the cut, zeros where the image
holds none, and no other byte; one of a cut that no image holds ends with status 0xC7. A takeover on a spare
asks the partner for the image, and proposes the assumption once the frames are copied. (Rests on parts of
R347, R348, R350, R351, R356, R357, R360, R361, R362, R363, R364, R365.) -/
def Obligations.Checkpoints : Prop :=
  (∀ c a s, AcceptsPf c .operational s → a.toNat ≤ 128 → ∃ t, exec (.checkpointReserve c a) s = .next t ∧
    Posts s t { src := c, status := .success } ∧ t.mgmt.norReserve = a.toNat ∧ CoreSame s t) ∧
  (∀ c a s, AcceptsPf c .operational s → 128 < a.toNat → ∃ t, exec (.checkpointReserve c a) s = .next t ∧
    Posts s t { src := c, status := .invalidField } ∧ HostFrame c s t) ∧
  (∀ c dw10 dw11 dw12 m s, AcceptsPf c .operational s → Pre.settled s → fld dw10 31 3 = 0 → dw11.toNat ≤ 86400 →
    dw12.toNat ≤ 604800 → 0 < m.len → m.len < 2 ^ 32 →
    ∃ t, exec (.checkpointConfigure c dw10 dw11 dw12 (BitVec.ofNat 32 m.len) m) s = .next t ∧ t.ts = s.ts ∧
      t.flash = s.flash ∧ t.benches = s.benches ∧ t.fabric = s.fabric ∧
      (s.manifestOk c.fn m.bytes m.len = true → Posts s t { src := c, status := .success } ∧
        t.ckpt.attached = true ∧ t.ckpt.setEntries = manifestEntries m.bytes ∧ t.ckpt.nextFull = true ∧
        t.ckpt.autoCut = bitOf dw10.toNat 0 ∧ t.ckpt.flashEnable = bitOf dw10.toNat 1 ∧
        t.ckpt.autoTakeover = bitOf dw10.toNat 2 ∧ t.ckpt.prior = (if dw11 = 0 then 1200 else dw11.toNat) ∧
        t.ckpt.floor = dw12.toNat) ∧
      (s.manifestOk c.fn m.bytes m.len = false → Posts s t { src := c, status := .invalidField } ∧ t.ckpt = s.ckpt)) ∧
  (∀ c dw10 dw11 dw12 m s, AcceptsPf c .operational s → Pre.settled s → fld dw10 31 3 = 0 → dw11.toNat ≤ 86400 →
    dw12.toNat ≤ 604800 → ∃ t, exec (.checkpointConfigure c dw10 dw11 dw12 0 m) s = .next t ∧
      Posts s t { src := c, status := .success } ∧ t.ckpt.attached = false ∧ t.ckpt.setEntries = [] ∧ t.ts = s.ts) ∧
  (∀ c dw10 dw11 dw12 dw13 m s, AcceptsPf c .operational s → Pre.settled s →
    (fld dw10 31 3 ≠ 0 ∨ 86400 < dw11.toNat ∨ 604800 < dw12.toNat) →
    ∃ t, exec (.checkpointConfigure c dw10 dw11 dw12 dw13 m) s = .next t ∧
      Posts s t { src := c, status := .invalidField } ∧ HostFrame c s t) ∧
  (∀ c dw10 dw11 dw12 dw13 m s, AcceptsPf c .operational s →
    (s.ckpt.phase = 1 ∨ s.ckpt.phase = 3 ∨ s.ckpt.buddy.isSome = true ∨ s.ckpt.flash.isSome = true) →
    ∃ t, exec (.checkpointConfigure c dw10 dw11 dw12 dw13 m) s = .next t ∧
      Posts s t { src := c, status := .commandSequenceError } ∧ HostFrame c s t) ∧
  (∀ c dw10 dw11 dw12 s, AcceptsPf c .operational s → fld dw12 31 1 = 0 → s.ckpt.attached = true → s.ckpt.phase = 0 →
    s.ckpt.lastCut < cutOf dw10 dw11 → ∃ t, exec (.checkpointCut c dw10 dw11 dw12) s = .next t ∧ PostsNone s t ∧
      t.host.ops = s.host.ops ++ [{ id := s.host.nextOp, src := c, since := s.now,
                                    kind := .cut (cutOf dw10 dw11) (bitOf dw12.toNat 0) }] ∧
      t.ckpt.phase = 1 ∧ t.ckpt.cutNumber = cutOf dw10 dw11 ∧ t.ckpt.cutOp = some s.host.nextOp ∧
      t.ckpt.holdFns = s.setOwners ∧ t.ckpt.lastCut = s.ckpt.lastCut ∧ t.ts = s.ts ∧ t.flash = s.flash) ∧
  (∀ c dw10 dw11 dw12 s, AcceptsPf c .operational s → fld dw12 31 1 = 0 → ∃ t,
    exec (.checkpointCut c dw10 dw11 dw12) s = .next t ∧
      (cutOf dw10 dw11 ≤ s.ckpt.lastCut → Posts s t { src := c, status := .invalidField } ∧ HostFrame c s t) ∧
      (s.ckpt.lastCut < cutOf dw10 dw11 → (s.ckpt.attached = false ∨ s.ckpt.phase ≠ 0) →
        Posts s t { src := c, status := .commandSequenceError } ∧ HostFrame c s t)) ∧
  (∀ s, (s.ckpt.attached = false ∨ s.ckpt.phase ≠ 0 ∨ s.ckpt.buddy.isSome = true ∨
    (s.now - s.ckpt.lastCutAt) / ticksPerMs < s.ckpt.interval) → exec .cutDue s = .next s) ∧
  (∀ s, s.ckpt.attached = true → s.ckpt.phase = 0 → s.ckpt.buddy = none →
    s.ckpt.interval ≤ (s.now - s.ckpt.lastCutAt) / ticksPerMs → ∃ t, exec .cutDue s = .next t ∧ t.ts = s.ts ∧
      (s.ckpt.autoCut = true → t.ckpt.phase = 1 ∧ t.ckpt.cutNumber = s.ckpt.lastCut + 1 ∧ t.ckpt.cutOp = none) ∧
      (s.ckpt.autoCut = false → t.ckpt = { s.ckpt with dueRaised := true })) ∧
  (∀ s : State, 10000 ≤ s.ckpt.interval ∧ s.ckpt.interval ≤ 3600000) ∧
  (∀ s, s.cutReady = false → exec .cutProtect s = .next s) ∧
  (∀ o n w f s, s.cutReady = true → s.host.ops = [o] → s.fabric.heldWrites = [] → s.ckpt.serving = [] → o.kind = .cut n w → s.ckpt.cutOp = some o.id →
    (s.ctl o.src.fn).rdy = true → s.partnerLive = false → f = (s.ckpt.cutWantFlash && s.flashAllowed) →
    ∃ t, exec .cutProtect s = .next t ∧
      Posts s t { src := o.src, status := .success, dw0 := BitVec.ofNat 32 (b2n f + 2 * b2n s.ckpt.nextFull) } ∧
      t.host.ops = [] ∧
      t.ckpt.phase = 0 ∧ t.ckpt.lastCut = s.ckpt.cutNumber ∧ t.ts.mem = s.ts.mem ∧
      t.flash = { s.flash with ckptNext := t.flash.ckptNext } ∧
      (∀ e ∈ s.ckpt.setEntries, (t.entryExtent e).pageDirty = []) ∧
      t.ckpt.owed = (if s.ckpt.nextFull || f then s.savedTiles
        else s.savedTiles.filter fun x => s.tileDirty x || s.ckpt.owed.contains x) ∧
      (f = true → t.ckpt.flash = some { cut := s.ckpt.cutNumber, tiles := s.savedTiles, todo := s.savedTiles,
                                        since := s.now } ∧
        ∀ x ∈ s.savedTiles, x.2.2 ∈ (t.extent x.1 x.2.1).writeProtect)) ∧
  (∀ x s, s.cutReady = true → Pre.still s → s.ckpt.serving = [] → s.ckpt.cutOp = none → s.partnerLive = true →
    s.ckpt.cutWantFlash = false → s.ckpt.nextFull = true → s.savedTiles = [x] → Pre.streamable x s →
    s.storeRoom x.1 65536 = true → ∃ t m1 m2 m3, exec .cutProtect s = .next t ∧
      t.fabric.store = s.fabric.store ++ [m1, m2, m3] ∧ m1.dst = s.fabric.partner ∧
      m1.kind = .tile s.ckpt.cutNumber ∧
      m1.addr = tileAddr x.1 x.2.1 x.2.2 ∧ m1.payload.len = 65536 ∧
      (∀ i, i < 65536 → m1.payload.bytes.get i = s.ts.mem.get (m1.addr + i)) ∧
      m2.dst = s.fabric.partner ∧ m2.kind = .manifest s.ckpt.cutNumber s.recordedSet ∧
      m3.dst = s.fabric.partner ∧ m3.kind = .commit s.ckpt.cutNumber ∧
      t.ts.mem = s.ts.mem ∧ t.ckpt.lastCut = s.ckpt.cutNumber ∧ t.ckpt.owed = []) ∧
  (∀ c dw10 dw11 r s, AcceptsPf c .operational s → s.host.ops = [] → s.ckpt.waitResult (cutOf dw10 dw11) = some r →
    ∃ t, exec (.checkpointWait c dw10 dw11) s = .next t ∧ Posts s t { src := c, status := r.1, dw0 := r.2 } ∧
      t.host.ops = [] ∧ CoreSame s t) ∧
  (∀ c dw10 dw11 s, AcceptsPf c .operational s → s.host.ops = [] → s.ckpt.waitResult (cutOf dw10 dw11) = none →
    ∃ t, exec (.checkpointWait c dw10 dw11) s = .next t ∧ PostsNone s t ∧ CoreSame s t ∧
      t.host.ops = [{ id := s.host.nextOp, src := c, kind := .ckptWait (cutOf dw10 dw11), since := s.now }]) ∧
  (∀ c dw10 dw11 dw12 s, AcceptsPf c .operational s → fld dw12 31 2 = 0 → Pre.still s → Pre.settled s →
    s.imageFor (cutOf dw10 dw11) (fld dw12 1 0) = none →
    ∃ t, exec (.checkpointRestore c dw10 dw11 dw12) s = .next t ∧ Posts s t { src := c, status := .vendor 0xC7 } ∧
      t.ckpt.phase = 0 ∧ t.ts = s.ts) ∧
  (∀ c dw10 dw11 dw12 im e s, AcceptsPf c .operational s → fld dw12 31 2 = 0 → Pre.still s → Pre.settled s →
    s.resets = [] → s.imageFor (cutOf dw10 dw11) (fld dw12 1 0) = some im → im.entries = [e] → isSaved e = true →
    (s.entryExtent e).st = 1 → (s.entryExtent e).length = e.length → (s.entryExtent e).owner = e.owner →
    (∀ f ∈ im.frames, f.data.wf = true) → s.mgmt.eccArm = false → s.mgmt.planted = [] →
    ∃ t, exec (.checkpointRestore c dw10 dw11 dw12) s = .next t ∧ Posts s t { src := c, status := .success } ∧
      t.ckpt.phase = 0 ∧ t.ckpt.attached = true ∧ t.ckpt.setEntries = [e] ∧ t.ckpt.nextFull = true ∧
      (∀ i x, i < e.length → x < 65536 →
        t.ts.mem.get (tileAddr (addrDie e.addr) (addrSlot e.addr) i + x) =
          match frameOf im.frames (cutOf dw10 dw11) (tileAddr (addrDie e.addr) (addrSlot e.addr) i) with
          | none => 0
          | some f => f.data.get x) ∧
      (∀ a, (a < tileAddr (addrDie e.addr) (addrSlot e.addr) 0 ∨
          tileAddr (addrDie e.addr) (addrSlot e.addr) e.length ≤ a) → t.ts.mem.get a = s.ts.mem.get a) ∧
      t.flash = s.flash ∧ t.benches = s.benches) ∧
  (∀ c s, AcceptsPf c .operational s → ∃ t, exec (.interruptionReport c) s = .next t ∧
    Posts s t { src := c, status := .success } ∧
    t.ckpt = { s.ckpt with interruptions := (s.now :: s.ckpt.interruptions).take 17 } ∧ t.ts = s.ts) ∧
  (∀ c dw10 s, AcceptsPf c .operational s → Pre.noAers s → fld dw10 31 12 = 0 → s.fabric.spare = true →
    s.fabric.assumedHere = none → Pre.settled s → coordBoard (fld dw10 11 0) = s.fabric.board →
    ∃ t, exec (.takeover c dw10) s = .next t ∧ PostsNone s t ∧ t.ckpt.phase = 4 ∧
      t.ckpt.takeoverCoord = some (fld dw10 11 0) ∧ t.ckpt.takeoverOp = some s.host.nextOp ∧
      (∃ m, t.fabric.store = s.fabric.store ++ [m] ∧ m.kind = .imageAsk ∧
        m.dst = boardCoord (coordBoard (fld dw10 11 0)) (coordPosition (fld dw10 11 0) ^^^ 1)) ∧
      t.fabric.assumedHere = none ∧ t.ts = s.ts) ∧
  (∀ c dw10 s, AcceptsPf c .operational s → fld dw10 31 12 = 0 → s.fabric.spare = false →
    ∃ t, exec (.takeover c dw10) s = .next t ∧ Posts s t { src := c, status := .commandSequenceError } ∧
      HostFrame c s t) ∧
  (∀ n p ms fs x e s, s.ckpt.phase = 4 → s.ckpt.takeoverCoord = some x → 0 < n →
    e = { base := s.fabric.epoch, originator := s.fabric.ident, kind := 3, subject := x + 8192 * s.fabric.selfIdent } →
    e ∉ s.fabric.heldEvents → ∃ t, exec (.takeoverCopyDone n p ms fs) s = .next t ∧ t.ckpt.localFrames = fs ∧
      t.ckpt.localManifests = ms ∧ n ∈ t.ckpt.localCuts ∧ e ∈ t.fabric.heldEvents ∧ t.fabric.waiting = true ∧
      t.fabric.assumedHere = s.fabric.assumedHere ∧ t.ts.mem = s.ts.mem ∧
      (∀ d, (t.die d).slots = (s.die d).slots) ∧ t.host = s.host) ∧
  (∀ n p ms fs s, s.ckpt.takeoverCoord = none → exec (.takeoverCopyDone n p ms fs) s = .next s) ∧
  (∀ b s, s.ckpt.flash = some b → b.todo = [] → Pre.still s → ∃ t, exec .flashCheckpointCommit s = .next t ∧
    t.ckpt.flash = none ∧ t.ckpt.flashCommitted = b.cut ∧ t.ckpt.flashSlot = 1 - s.ckpt.flashSlot ∧
    (if s.ckpt.flashSlot = 0 then t.ckpt.flashCut1 else t.ckpt.flashCut0) = b.cut ∧ t.ckpt.flashFrames0 = s.ckpt.flashFrames0 ∧
    t.ckpt.flashFrames1 = s.ckpt.flashFrames1 ∧ t.ts = s.ts) ∧
  (∀ b worst s, s.ckpt.flash = some b → b.fails < 2 → Pre.badRead worst →
    ∃ t, exec (.flashStreamPageReadBack worst) s = .next t ∧
    t.ckpt = { s.ckpt with regionWritten := s.ckpt.regionWritten + 16384, flash := some { b with fails := b.fails + 1 } } ∧
    t.ts = s.ts ∧ t.host = s.host) ∧
  (∀ b worst s, s.ckpt.flash = some b → 2 ≤ b.fails → Pre.still s → Pre.badRead worst →
    ∃ t, exec (.flashStreamPageReadBack worst) s = .next t ∧ t.ckpt.flash = none ∧
      t.ckpt.abandoned = s.ckpt.abandoned + 1 ∧ t.ckpt.lastAbandon = 5 ∧ t.ckpt.flashCommitted = s.ckpt.flashCommitted ∧
      t.ts.mem = s.ts.mem) ∧
  (∀ b worst s, s.ckpt.flash = some b → b.todo = [] → s.ckpt.shadow = [] → worst ≤ 48 →
    ∃ t, exec (.flashStreamPageReadBack (some worst)) s = .next t ∧ t.ts = s.ts ∧ t.host = s.host ∧
      t.ckpt = { s.ckpt with regionWritten := s.ckpt.regionWritten + 16384
                             flash := some { b with fails := 0, committing := true } }) ∧
  (∀ b x rest worst s, s.ckpt.flash = some b → b.todo = x :: rest → x ∉ rest → Pre.streamable x s → Pre.still s →
    s.ckpt.flashSlot = 0 → s.ckpt.flashCut1 = 0 → worst ≤ 48 →
    ∃ t, exec (.flashStreamPageReadBack (some worst)) s = .next t ∧ t.ts.mem = s.ts.mem ∧
      t.ckpt.regionWritten = s.ckpt.regionWritten + 16384 ∧ t.ckpt.flashFrames0 = s.ckpt.flashFrames0 ∧
      (b.page < 3 → t.ckpt.flash = some { b with fails := 0, page := b.page + 1 } ∧
        t.ckpt.flashFrames1 = s.ckpt.flashFrames1) ∧
      (3 ≤ b.page → t.ckpt.flash = some { b with fails := 0, page := 0, todo := rest } ∧
        ∃ f, t.ckpt.flashFrames1 = s.ckpt.flashFrames1 ++ [f] ∧ f.addr = tileAddr x.1 x.2.1 x.2.2 ∧ f.cut = b.cut ∧
          ∀ i, i < 65536 → f.data.get i = s.ts.mem.get (f.addr + i)))

/-- A word read in a background scrub of memory `m` holds the errors `w` and nothing else; the scrub can read there. -/
abbrev Pre.scrubbed (m place a : Nat) (w : List Nat) (s : State) : Prop :=
  s.scrubbable m place = true ∧ addWeights (s.heldWeights m (if m = 1 then place else 0)
    (a / wordBytes m * wordBytes m)) w = w

/-- No scan is outstanding, whose output a reset would leave undefined (R54). -/
abbrev Pre.noScans (s : State) : Prop := ∀ o ∈ s.host.ops, ∀ i, o.kind ≠ .scan i

/-- No unit of the scope of a reset awaits retirement. -/
abbrev Pre.noneRetiring (scope idx : Nat) (s : State) : Prop :=
  (∀ b ∈ scopeBenches scope idx, (s.bench b).retirePending = false ∧ (s.bench b).walker.retirePending = false ∧
    ∀ a, (s.arr b a).retirePending = false) ∧
  ∀ r ∈ scopeRegions scope idx, (s.region r).retirePending = false ∧ (s.region r).haul.pendingGroups = []

/-- SRAM words correct one bit and detect two; DRAM codewords correct up to eight symbols, and any error of one
core die with up to three symbols elsewhere; with a core die erased, any of its errors and three symbols
elsewhere. A scrub read of a clean word changes nothing, or the triggered count alone; a correctable one is
counted, written back and remembered for its row, and the third pass of an SRAM row takes a spare; an
uncorrectable one in T0 begins a reset of its region, and in the management core's memory halts the core. A
correction by die trial counts the codeword and its row for the die it names; a DRAM stack enters erasure mode
once, for a die that meets the criteria, and records a second one once. The end of a triggered pass sets done
and is journalled. A die fabric error begins a reset of its die; its contents stand until the reset ends.
(Rests on parts of R20, R368, R369, R372, R373, R374, R377, R378, R379, R386.) -/
def Obligations.ProtectionAndScrub : Prop :=
  (∀ m w, m ≠ 7 → (weightOf w = 0 → decodeWord m none w = .clean) ∧ (weightOf w = 1 → decodeWord m none w = .corrected false) ∧
    (weightOf w = 2 → decodeWord m none w = .uncorrectable)) ∧
  (∀ w, 1 ≤ weightOf w → weightOf w ≤ 8 → decodeWord 7 none w = .corrected false) ∧
  (∀ w d, 8 < weightOf w → d < 16 → weightOf w - w.getD d 0 ≤ 3 → decodeWord 7 none w = .corrected true) ∧
  (∀ w e, 1 ≤ weightOf w - w.getD e 0 → weightOf w - w.getD e 0 ≤ 3 → decodeWord 7 (some e) w = .corrected false) ∧
  (∀ m p a n s, Pre.scrubbed m p a [] s → exec (.scrubRead m p a n false []) s = .next s) ∧
  (∀ m p a n s, Pre.scrubbed m p a [] s → s.passCovers m p (a / wordBytes m * wordBytes m) = true →
    exec (.scrubRead m p a n true []) s =
      .next (s.modMgmt fun x => { x with scrubWords := x.scrubWords + 1 })) ∧
  (∀ m p a n tr s, (s.scrubbable m p = false ∨ (tr = true ∧ s.passCovers m p (a / wordBytes m * wordBytes m) = false)) →
    ∀ w, exec (.scrubRead m p a n tr w) s = .next s) ∧
  (∀ b a n s, Pre.scrubbed 1 b a [1] s → s.mgmt.rowHits = [] →
    ∃ t, exec (.scrubRead 1 b a n false [1]) s = .next t ∧ t.mgmt.memCorr = s.mgmt.memCorr + 1 ∧
      t.mgmt.memDcorr = s.mgmt.memDcorr ∧ t.mgmt.rowHits = [(1, b, a / 8 * 8 / 1024, [n])] ∧ t.benches = s.benches ∧
      t.ts = s.ts ∧ t.resets = s.resets ∧ (∀ e ∈ t.mgmt.planted, ¬(e.1 = 1 ∧ e.2.1 = b ∧ e.2.2.1 = a / 8 * 8))) ∧
  (∀ b a n x y s, Pre.scrubbed 1 b a [1] s → s.mgmt.rowHits = [(1, b, a / 8 * 8 / 1024, [x, y])] → n ∉ [x, y] →
    (s.bench b).spareRows < 64 → ∃ t, exec (.scrubRead 1 b a n false [1]) s = .next t ∧
      t.mgmt.memCorr = s.mgmt.memCorr + 1 ∧ t.mgmt.rowHits = [] ∧ (t.bench b).t0 = (s.bench b).t0 ∧
      (t.bench b).spareRows = (s.bench b).spareRows + 1 ∧ t.mgmt.repairTotal = s.mgmt.repairTotal + 1 ∧
      t.ts = s.ts) ∧
  (∀ b a n s, Pre.scrubbed 1 b a [2] s → Pre.still s →
    (∀ r ∈ s.resets, scopeWithin 1 (regionOf b) r.scope r.idx = false) →
    ∃ t, exec (.scrubRead 1 b a n false [2]) s = .next t ∧
      (∃ r ∈ t.resets, r.scope = 1 ∧ r.idx = regionOf b ∧ r.entry.kind = 1 ∧ r.entry.memory = 1 ∧
        r.entry.address = BitVec.ofNat 64 (a / 8 * 8)) ∧
      (t.region (regionOf b)).st = .reset ∧ t.ts.mem = s.ts.mem) ∧
  (∀ p a n s, Pre.scrubbed 0x0C p a [2] s → Pre.still s →
    ∃ t, exec (.scrubRead 0x0C p a n false [2]) s = .next t ∧ t.mgmt = { s.mgmt with halted := true } ∧
      CoreSame s t ∧ t.host = s.host ∧ t.regions = s.regions) ∧
  (∀ p a n w d s, Pre.scrubbed 7 p a w s → s.erasedOf (scrubStack p (a / 256 * 256)) = none → 8 < weightOf w → d < 16 →
    weightOf w - w.getD d 0 ≤ 3 → ∃ t, exec (.scrubRead 7 p a n false w) s = .next t ∧
      t.mgmt.memTrials = s.mgmt.memTrials + 1 ∧
      (let k := 16 * scrubStack p (a / 256 * 256) + d
       tget {} t.mgmt.dieNames k = (tget {} s.mgmt.dieNames k).name (a / 256 * 256) ∧
       ∀ j, j ≠ k → tget {} t.mgmt.dieNames j = tget {} s.mgmt.dieNames j)) ∧
  (∀ k d s, thas s.mgmt.erasure k = false → s.dieCriteria k d = true →
    ∃ t, exec (.dramErasureModeEnter k d) s = .next t ∧
    t.erasedOf k = some d ∧ (∀ j, j ≠ k → t.erasedOf j = s.erasedOf j) ∧
    t.mgmt.journalTotal = s.mgmt.journalTotal + 1 ∧ t.mgmt.repairTotal = s.mgmt.repairTotal + 1 ∧ CoreSame s t) ∧
  (∀ k d s, (thas s.mgmt.erasure k = true ∨ s.dieCriteria k d = false) →
    exec (.dramErasureModeEnter k d) s = .next s) ∧
  (∀ k d e s, s.erasedOf k = some e → e ≠ d → thas s.mgmt.secondDie k = false → s.dieCriteria k d = true →
    ∃ t, exec (.secondDieErasureCriteria k d) s = .next t ∧ tget 0 t.mgmt.secondDie k = d ∧
      t.mgmt.erasure = s.mgmt.erasure ∧ t.mgmt.journalTotal = s.mgmt.journalTotal + 1 ∧
      t.mgmt.repairTotal = s.mgmt.repairTotal + 1 ∧ CoreSame s t) ∧
  (∀ k d s, (s.erasedOf k = none ∨ s.erasedOf k = some d ∨ thas s.mgmt.secondDie k = true ∨
      s.dieCriteria k d = false) →
    exec (.secondDieErasureCriteria k d) s = .next s) ∧
  (∀ s, s.mgmt.scrubBusy = true → ∃ t, exec .scrubPassDone s = .next t ∧ t.mgmt.scrubBusy = false ∧
    t.mgmt.scrubDone = true ∧ t.mgmt.journalTotal = s.mgmt.journalTotal + 1 ∧ t.mgmt.planted = s.mgmt.planted ∧
    t.mgmt.scrubTime.toNat = (s.now - s.mgmt.scrubSince) / 3 ∧ CoreSame s t ∧ t.host = s.host) ∧
  (∀ s, s.mgmt.scrubBusy = false → exec .scrubPassDone s = .next s) ∧
  (∀ d s, s.power.on = true → (∀ r ∈ s.resets, scopeWithin 2 d r.scope r.idx = false) →
    ∃ t, exec (.dieFabricError d) s = .next t ∧
      (∃ r ∈ t.resets, r.scope = 2 ∧ r.idx = d ∧ r.entry.kind = 5) ∧
      (∀ r, r / 4 = d → (s.region r).st ≠ .retired → (t.region r).st = .reset) ∧ (Pre.noScans s → t.ts.mem = s.ts.mem) ∧
      t.host.completions = s.host.completions)

/-- A module or cold reset would not be absorbed. -/
abbrev Pre.noWide (s : State) : Prop := ∀ r ∈ s.resets, r.scope < 3

/-- The reset `r` is the one under way; it ends nothing and absorbed nothing, and no unit of its scope awaits
retirement. -/
abbrev Pre.lastReset (r : ResetRun) (s : State) : Prop :=
  s.resets = [r] ∧ r.absorbed = [] ∧ r.entry.kind ≠ 1 ∧ r.entry.memory = 0 ∧ Pre.still s ∧ s.ckpt.serving = [] ∧
    (∀ b ∈ scopeBenches r.scope r.idx, (s.bench b).bind = none) ∧ Pre.noneRetiring r.scope r.idx s ∧
    s.ckpt.buddy = none ∧ s.ckpt.flash = none ∧ (∀ p, (s.port p).st ≠ 5) ∧ Pre.noAers s

/-- A region reset isolates its region: the region is in RESET, its benches UNBOUND, and the programs with a bench
in it end; a face die reset does so for the regions of its die. A trigger inside the scope of a reset that
runs is absorbed. A module reset and a cold reset end every command without a completion, empty tensor space,
bench stores, programs and controllers, and leave the flash medium and the namespaces; a cold reset also
restarts the counters and the journal and names its cause. RESET_COMPLETE of a region reset zeroes the
region's benches, puts it to sleep, posts what was kept for it and makes one journal entry; of a face die
reset it also empties the tensor space of that die and of no other; of a module reset it brings the regions
back, asleep. A cold reset does not end before the boot chain has handed over. (Rests on parts of R20, R22,
R24, R25, R189, R382, R387, R389, R391, R411.) -/
def Obligations.ResetsBeginAndEnd : Prop :=
  (∀ g k m b a s, s.power.on = true → (s.region g).st ≠ .retired → (k = 1 ∨ k = 8) →
    (∀ r ∈ s.resets, scopeWithin 1 g r.scope r.idx = false) → ∃ t, exec (.regionReset g k m b a) s = .next t ∧
      (∃ r ∈ t.resets, r.scope = 1 ∧ r.idx = g ∧ r.entry.kind = k ∧ r.entry.address = a) ∧ (t.region g).st = .reset ∧
      (∀ x, x / 5 = g → (t.bench x).seq.st = .unbound) ∧ (∀ x, x ≠ g → (t.region x).st = (s.region x).st) ∧
      (∀ x key, x / 5 = g → (s.bench x).bind.map (·.prog) = some key → (t.prog key).running = none) ∧
      (Pre.noScans s → t.ts.mem = s.ts.mem) ∧ t.host.completions = s.host.completions) ∧
  (∀ g k m b a s, (s.power.on = false ∨ (s.region g).st = .retired) →
    exec (.regionReset g k m b a) s = .next s) ∧
  (∀ d k m x a s, s.power.on = true → (k = 2 ∨ k = 5) → (∀ r ∈ s.resets, scopeWithin 2 d r.scope r.idx = false) →
    ∃ t, exec (.faceDieReset d k m x a) s = .next t ∧
      (∃ r ∈ t.resets, r.scope = 2 ∧ r.idx = d ∧ r.entry.kind = k ∧ r.entry.address = a) ∧
      (∀ r, r / 4 = d → (s.region r).st ≠ .retired → (t.region r).st = .reset) ∧
      (∀ r, r / 4 ≠ d → (t.region r).st = (s.region r).st) ∧ (Pre.noScans s → t.ts.mem = s.ts.mem) ∧
      t.host.completions = s.host.completions) ∧
  (∀ d k m x a s r, s.power.on = true → (k = 2 ∨ k = 5) → s.resets = [r] → scopeWithin 2 d r.scope r.idx = true →
    ∃ t e, exec (.faceDieReset d k m x a) s = .next t ∧ t = { s with resets := [{ r with absorbed := r.absorbed ++ [e] }] } ∧
      e.kind = k ∧ e.scope = 2 ∧ bitOf e.flags 0 = true) ∧
  (∀ k m s, s.power.on = true → (k = 2 ∨ k = 6 ∨ k = 7) → Pre.noWide s →
    ∃ t, exec (.moduleReset k m) s = .next t ∧ ModuleCleared s t ∧ t.resets.map (·.scope) = [3] ∧ PostsNone s t ∧
      (∀ fn, (t.ctl fn).cfs = (decide (k = 2) && ((s.ctl fn).en || (s.ctl fn).cfs))) ∧ t.clk = s.clk ∧
      t.mgmt.journal = s.mgmt.journal) ∧
  (∀ fn s, s.power.on = true → s.hasFn fn = true → Pre.noWide s → ∃ t, exec (.nvmSubsystemReset fn) s = .next t ∧
    ModuleCleared s t ∧ t.resets.map (·.scope) = [3] ∧ PostsNone s t ∧ (∀ f, (t.ctl f).cfs = false)) ∧
  (∀ cause s, (∀ r ∈ s.resets, r.scope ≠ 4) → ∃ t, exec (.coldReset cause) s = .next t ∧ ModuleCleared s t ∧
    t.resets.map (·.scope) = [4] ∧ t.mgmt.coldCause = cause ∧ t.mgmt.journal = [] ∧ t.mgmt.journalTotal = 0 ∧
    t.clk = {} ∧ t.sec.booted = false ∧ t.sec.lcRecord = s.sec.lcRecord ∧ t.mgmt.repairs = s.mgmt.repairs ∧
    t.host.dual = s.mgmt.norDual ∧ PostsNone s t) ∧
  (∀ r e n us s, Pre.lastReset r s → r.scope = 1 → r.idx < 8 → (s.region r.idx).st = .reset →
    (s.die (dieOf r.idx)).held = false → (s.die (dieOf r.idx)).slots = [] → r.posts = [(e, n)] →
    (s.ctl e.src.fn).rdy = true → ∃ t, exec (.resetComplete [] us) s = .next t ∧ t.resets = [] ∧
      (t.region r.idx).st = .sleep ∧ Posts s t e ∧ t.mgmt.journalTotal = s.mgmt.journalTotal + 1 ∧
      (∀ b a, b / 5 = r.idx → (t.bench b).t0.get a = 0 ∧ (t.bench b).seq.st = .unbound) ∧
      (∀ b, b / 5 ≠ r.idx → t.bench b = s.bench b) ∧ (∀ x, x ≠ r.idx → t.region x = s.region x) ∧ t.ts = s.ts) ∧
  (∀ r us s, Pre.lastReset r s → r.scope = 2 → r.idx < 2 → (s.die r.idx).held = false → r.posts = [] →
    ∃ t, exec (.resetComplete [] us) s = .next t ∧ t.resets = [] ∧
      (∀ a, addrDie a = r.idx → t.ts.mem.get a = 0) ∧ (∀ a, addrDie a ≠ r.idx → t.ts.mem.get a = s.ts.mem.get a) ∧
      (∀ j, (t.extent r.idx j).st = 0) ∧ (∀ d j, d ≠ r.idx → t.extent d j = s.extent d j) ∧
      (∀ b a, b < 40 → benchDie b = r.idx → (t.bench b).t0.get a = 0) ∧ (∀ b, benchDie b ≠ r.idx → t.bench b = s.bench b) ∧
      (∀ g, g < 8 → dieOf g = r.idx → (s.region g).st = .reset → (t.region g).st = .sleep)) ∧
  (∀ r us s, Pre.lastReset r s → r.scope = 3 → s.sec.transition = none → (∀ d, (s.die d).held = false) →
    ∃ t, exec (.resetComplete [] us) s = .next t ∧ t.resets = [] ∧
      t.mgmt.journalTotal = s.mgmt.journalTotal + 1 ∧ t.ts = s.ts ∧ t.host = s.host ∧
      ∀ g, g < 8 → (s.region g).st = .reset → (t.region g).st = .sleep) ∧
  (∀ r f us s, s.resets = [r] → r.scope = 4 → s.sec.booted = false →
    exec (.resetComplete f us) s = .next s)

/-- PERST# of the only port resets the module and takes the link down; asserted again it does nothing; released,
what the host offers is noted, and the link trains to it once the identity reads are done and a bank has
booted. A press of ATTN# is counted, toggles the blinking and is ignored while the input is masked; the end of
the blinking and the release only do that. An input held too long is masked once. PWRDIS opens the main switch
and its release powers the module up with cause 0x03; undervoltage and overvoltage open it until the input has
recovered; power loss takes standby too. With the switch closed again a cold reset runs. What is volatile is
gone each time, the flash medium and the namespaces stand, and no completion is posted. The watchdog causes a
cold reset with cause 0x02. (Rests on parts of R22, R294, R391, R429, R440, R441, R457, R459, R460, R461,
R462, R463.) -/
def Obligations.PinsAndInputPower : Prop :=
  (∀ s, s.power.on = true → (s.input 0).level = false → s.host.dual = false → Pre.noWide s →
    ∃ t, exec (.perstAssert 0) s = .next t ∧ ModuleCleared s t ∧ t.resets.map (·.scope) = [3] ∧ PostsNone s t ∧
      (t.input 0).level = true ∧ t.host.p0Speed = 0 ∧ t.host.p0Width = 0) ∧
  (∀ p s, (s.input p).level = true → exec (.perstAssert p) s = .next s) ∧
  (∀ s, s.power.on = true → (s.input 0).level = false → (s.input 1).level = false → s.host.dual = true → Pre.still s →
    ∃ t, exec (.perstAssert 0) s = .next t ∧ (∀ f, f < 17 → (t.ctl f).rdy = false) ∧
      (∀ f, 17 ≤ f → (t.ctl f).rdy = (s.ctl f).rdy) ∧ t.resets = s.resets ∧ t.host.p0Speed = 0) ∧
  (∀ sp w s, s.power.on = true → s.sec.booted = true → s.power.identityDone = true → s.linkOk sp w = true →
    ∃ t, exec (.perstDeassert 0 sp w) s = .next t ∧ (t.input 0).level = false ∧ t.host.p0Speed = sp ∧
      t.host.p0Width = w ∧ t.host.controllers = s.host.controllers ∧ CoreSame s t) ∧
  (∀ p sp w s, s.power.on = true → (s.sec.booted = false ∨ s.power.identityDone = false) →
    exec (.perstDeassert p sp w) s = .next ((s.releaseInput p).offerLink p sp w)) ∧
  (∀ sp w (s : State), s.power.on = true → s.sec.booted = true → s.power.identityDone = false → s.mgmt.identityDue = [] →
    s.linkOk sp w = true → thas s.host.offers 0 = true → tget (0, 0) s.host.offers 0 = (sp, w) →
    (s.takeIdentities []).power.identityDone = true ∧ (s.takeIdentities []).host.p0Speed = sp ∧
      (s.takeIdentities []).host.p0Width = w) ∧
  (∀ s, s.power.on = true → (s.input 2).masked = false → ∃ t, exec .attnPress s = .next t ∧
    t.mgmt.attnPresses = s.mgmt.attnPresses + 1 ∧ t.mgmt.attnBlink = !s.mgmt.attnBlink ∧ (t.input 2).level = true ∧
    CoreSame s t) ∧
  (∀ s, (s.input 2).masked = true → exec .attnPress s = .next s) ∧
  (∀ s, exec .attentionBlinkExpire s = .next (s.modMgmt fun m => { m with attnBlink := false })) ∧
  (∀ s, ∃ t, exec .attnRelease s = .next t ∧ (t.input 2).level = false ∧ (t.input 2).masked = false ∧
    (t.input 2).stuck = false ∧ (∀ i, i ≠ 2 → t.input i = s.input i) ∧ CoreSame s t ∧ t.host = s.host) ∧
  (∀ i s, (s.input i).level = true → (s.input i).stuck = false → ∃ t, exec (.sidebandStuck i) s = .next t ∧
    (t.input i).masked = true ∧ (t.input i).stuck = true ∧ (∀ j, j ≠ i → t.input j = s.input j) ∧
    (i = 3 → (t.input i).owed = true ∧ t.host = s.host) ∧ CoreSame s t) ∧
  (∀ i s, ((s.input i).level = false ∨ (s.input i).stuck = true) → exec (.sidebandStuck i) s = .next s) ∧
  (∀ s, s.power.on = true → (s.input 3).level = false → ∃ t, exec .pwrdisAssert s = .next t ∧ ModuleCleared s t ∧
    t.power.on = false ∧ t.power.standby = true ∧ t.resets = [] ∧ PostsNone s t ∧ (t.input 3).level = true ∧
    t.mgmt.journal = s.mgmt.journal) ∧
  (∀ s, s.power.on = false → s.power.outOfRange = false → (s.input 3).level = true → (∀ r ∈ s.resets, r.scope ≠ 4) →
    ∃ t, exec .pwrdisRelease s = .next t ∧ t.power.on = true ∧ t.mgmt.coldCause = 0x03 ∧
      t.resets.map (·.scope) = [4] ∧ (t.input 3).level = false ∧ ModuleCleared s t) ∧
  (∀ s, s.power.outOfRange = true → (s.input 3).level = true → exec .pwrdisRelease s = .next (s.releaseInput 3)) ∧
  (∀ s, s.power.on = false → s.power.outOfRange = false → (s.input 3).level = false → (∀ r ∈ s.resets, r.scope ≠ 4) →
    ∃ t, exec .mainSwitchClose s = .next t ∧ t.power.on = true ∧ t.power.standby = true ∧ t.mgmt.coldCause = 0x01 ∧
      t.resets.map (·.scope) = [4] ∧ ModuleCleared s t) ∧
  (∀ s, (s.power.on = true ∨ s.power.outOfRange = true ∨ (s.input 3).level = true) →
    exec .mainSwitchClose s = .next s) ∧
  (∀ i b s, i = .undervoltage b ∨ i = .overvoltage b → s.power.on = true → ∃ t, exec i s = .next t ∧
    ModuleCleared s t ∧ t.power.on = false ∧ t.power.standby = b ∧ t.power.outOfRange = true ∧ t.resets = [] ∧
    PostsNone s t) ∧
  (∀ s, s.power.outOfRange = true → (s.input 3).level = false → (∀ r ∈ s.resets, r.scope ≠ 4) →
    ∃ t, exec .inputRecovered s = .next t ∧ t.power.on = true ∧ t.power.outOfRange = false ∧
      t.mgmt.coldCause = 0x01 ∧ t.resets.map (·.scope) = [4] ∧ ModuleCleared s t) ∧
  (∀ s, s.power.outOfRange = false → exec .inputRecovered s = .next s) ∧
  (∀ s, ∃ t, exec .powerLoss s = .next t ∧ ModuleCleared s t ∧ t.power.on = false ∧ t.power.standby = false ∧
    t.power.outOfRange = false ∧ t.resets = [] ∧ PostsNone s t ∧ t.mgmt.sideband = [] ∧
    t.mgmt.repairs = s.mgmt.repairs ∧ t.sec.lcRecord = s.sec.lcRecord) ∧
  (∀ s, s.power.on = true → (∀ r ∈ s.resets, r.scope ≠ 4) → ∃ t, exec .watchdogExpiry s = .next t ∧
    ModuleCleared s t ∧ t.mgmt.coldCause = 0x02 ∧ t.resets.map (·.scope) = [4]) ∧
  (∀ s, s.power.on = false → exec .watchdogExpiry s = .next s)

/-- A management pass with nothing to do but govern: no unit awaits retirement, no stage is silent or restarted, no
identity was read, no symbols were corrected, no firmware is being written and no command or peer write waits. -/
abbrev Pre.plainPass (t : Telemetry) (s : State) : Prop :=
  t.silentStages = [] ∧ t.restartedStages = [] ∧ t.identityReads = [] ∧ t.fecSymbols = [] ∧ t.overrun = false ∧
    s.mgmt.fwWork = none ∧ s.mgmt.plateAge < 2999 ∧ Pre.still s ∧
    (s.power.identityDone = true ∨ s.mgmt.identityDue ≠ [] ∨ s.host.offers = []) ∧
    (∀ b, (s.bench b).retirePending = false ∧ (s.bench b).walker.retirePending = false ∧
      ∀ a, (s.arr b a).retirePending = false) ∧
    ∀ r, (s.region r).retirePending = false ∧ (s.region r).haul.pendingGroups = []

/-- What R419 asks of a region that enters sleep. -/
abbrev Pre.sleepy (r : Nat) (s : State) : Prop :=
  (s.region r).st = .active ∧ (s.region r).entering = 0 ∧ (s.region r).sleepIdle ≠ 0xFFFF ∧ s.regionRuns r = false ∧
    (s.region r).haul.reqs = [] ∧ s.sliceMoves r = false ∧ s.idleLong r = true

/-- The effective cap is at most the host cap, at most the cap of the power state, and one of the three of R421.
Where the floors fit under the power available, the grants of F, D and S together fit under it; each lies
between its floor and its demand. A MANAGEMENT_PERIOD with no other work sets the step of every awake region
to the highest at or below its maximum whose modelled power fits its share, 0 if none does, releases the
limiter, counts a period with k below 1, advances the up-time, kicks the watchdog and leaves the data plane as
it was. On standby it only kicks the watchdog; with the core halted it does nothing. (Rests on parts of R416,
R418, R421, R422, R423, R425, R428.) -/
def Obligations.GovernorApportions : Prop :=
  (∀ s : State, s.effectiveCap.1 ≤ s.hostCap ∧ s.effectiveCap.1 ≤ psCap s.host.powerState ∧
    (s.effectiveCap.1 = s.hostCap ∨ s.effectiveCap.1 = psCap s.host.powerState ∨
      s.effectiveCap.1 = 250 ∧ 3 ≤ s.host.powerState ∧ s.permissive = true)) ∧
  (∀ (cap hoist f0 f1 f2 d0 d1 d2 : Nat) (a : Apportion), f0 ≤ d0 → f1 ≤ d1 → f2 ≤ d2 →
    27 * (f0 + f1 + f2) + 400 * 27 * hoist ≤ 400 * 2500 * cap →
    a = apportion cap hoist [f0, f1, f2] [d0, d1, d2] → 0 < a.den ∧ a.num ≤ a.den ∧
      27 * (a.grant 0 + a.grant 1 + a.grant 2) + 400 * 27 * hoist * a.den ≤ 400 * 2500 * cap * a.den ∧
      f0 * a.den ≤ a.grant 0 ∧ a.grant 0 ≤ d0 * a.den ∧ f1 * a.den ≤ a.grant 1 ∧ a.grant 1 ≤ d1 * a.den ∧
      f2 * a.den ≤ a.grant 2 ∧ a.grant 2 ≤ d2 * a.den) ∧
  (∀ tel s, s.mgmt.halted = false → s.power.on = true → Pre.plainPass tel s →
    ∃ t, exec (.managementPeriod tel) s = .next t ∧ t.mgmt.kickAge = 0 ∧ t.mgmt.uptime = s.mgmt.uptime + 1 ∧
      (∀ k, (tget {} t.mgmt.dieNames k).words = []) ∧
      t.power.capEff = s.effectiveCap.1 ∧ t.power.capSource = s.effectiveCap.2 ∧ t.power.fastActive = false ∧
      t.power.throttled = decide ((s.grants tel).num < (s.grants tel).den) ∧
      t.power.throttleCount = (if t.power.throttled then s.power.throttleCount + 1 else s.power.throttleCount) ∧
      (∀ r, r < 8 → (s.region r).st = .active → (t.region r).st = .active ∧ (t.region r).halved = false ∧
        (t.region r).step ≤ Nat.min (s.region r).maxStep 18 ∧
        ((t.region r).step ≠ 0 → s.stepFits tel (s.grants tel) r (t.region r).step = true) ∧
        ∀ k, (t.region r).step < k → k ≤ Nat.min (s.region r).maxStep 18 →
          s.stepFits tel (s.grants tel) r k = false) ∧
      (∀ r, (t.region r).st = (s.region r).st ∧ (t.region r).haul = (s.region r).haul) ∧ t.benches = s.benches ∧
      t.ts = s.ts ∧ t.host = s.host ∧ t.flash = s.flash ∧ t.fabric = s.fabric ∧ t.sec = s.sec ∧ t.clk = s.clk ∧
      t.ckpt = s.ckpt ∧ t.scans = s.scans ∧ t.resets = s.resets ∧ t.mfg = s.mfg) ∧
  (∀ tel s, s.mgmt.halted = false → s.power.on = false → s.power.standby = true →
    exec (.managementPeriod tel) s = .next (s.modMgmt fun m => { m with kickAge := 0 })) ∧
  (∀ tel s, (s.mgmt.halted = true ∨ s.power.on = false ∧ s.power.standby = false) →
    exec (.managementPeriod tel) s = .next s)

/-- A region that meets R419 begins its entry into sleep, and any other is left alone; a wake source aborts the
entry, or starts and counts the wake of a sleeping region, but not in thermal shutdown or in PS3 and PS4. A
wake ends with the region ACTIVE at step 0, its clock halved while the limiter is active. The limiter halves
the clock of every awake region and the D and S limits, and is counted once. A sensor at its limit resets the
module with CSTS.CFS set on enabled controllers, no completion, and shutdown until every sensor is cool. A
window that has ended puts one snapshot at the front of its ring of 4, is counted and starts over; any other
monitor is left alone. A retrain makes the stack's identity due. The up-time is kept every 10,800,000 periods.
(Rests on parts of R17, R420, R424, R426, R430, R434, R436, R449.) -/
def Obligations.SleepLimiterShutdownAndService : Prop :=
  (∀ r s, Pre.sleepy r s → ∃ t, exec (.regionSleepEnter r) s = .next t ∧ CoreSame s t ∧ t.host = s.host ∧
    t.mgmt = s.mgmt ∧ t.region r = { s.region r with entering := 2 } ∧ ∀ x, x ≠ r → t.region x = s.region x) ∧
  (∀ r s, ¬Pre.sleepy r s → exec (.regionSleepEnter r) s = .next s) ∧
  (∀ r s, (s.region r).st = .sleep → s.power.shutdown = false → s.host.powerState < 3 →
    ∃ t, exec (.regionWake r) s = .next t ∧ CoreSame s t ∧ t.host = s.host ∧ t.mgmt = s.mgmt ∧
      t.region r = { s.region r with st := .waking, wakeCount := (s.region r).wakeCount + 1 } ∧
      ∀ x, x ≠ r → t.region x = s.region x) ∧
  (∀ r s, (s.region r).st = .active → 0 < (s.region r).entering → ∃ t, exec (.regionWake r) s = .next t ∧
    CoreSame s t ∧ (t.region r).st = .active ∧ (t.region r).entering = 0 ∧
    (t.region r).wakeCount = (s.region r).wakeCount ∧ ∀ x, x ≠ r → t.region x = s.region x) ∧
  (∀ r s, (s.region r).st = .sleep → (s.power.shutdown = true ∨ 3 ≤ s.host.powerState) →
    exec (.regionWake r) s = .next s) ∧
  (∀ r s, (s.region r).st = .waking → (s.region r).held = [] → Pre.still s → s.ckpt.buddy = none → s.ckpt.serving = [] →
    ∃ t, exec (.wakeComplete r) s = .next t ∧ CoreSame s t ∧ t.host = s.host ∧ t.mgmt = s.mgmt ∧
      (t.region r).st = .active ∧ (t.region r).step = 0 ∧ (t.region r).halved = s.power.fastActive ∧
      (t.region r).wakeCount = (s.region r).wakeCount ∧ (t.region r).haul = (s.region r).haul ∧
      ∀ x, x ≠ r → t.region x = s.region x) ∧
  (∀ r s, (s.region r).st ≠ .waking → exec (.wakeComplete r) s = .next s) ∧
  (∀ s, s.power.on = true → s.power.fastActive = false → ∃ t, exec .fastLimiterEngage s = .next t ∧
    t.power = { s.power with fastActive := true, fastCount := s.power.fastCount + 1,
                             dLimit := s.power.dLimit / 2, sLimit := s.power.sLimit / 2 } ∧
    (∀ r, r < 8 → (s.region r).st = .active → t.region r = { s.region r with halved := true }) ∧
    (∀ r, (s.region r).st ≠ .active → t.region r = s.region r) ∧ t.host = s.host ∧ t.ts = s.ts ∧
    t.benches = s.benches ∧ t.mgmt = s.mgmt) ∧
  (∀ s, (s.power.on = false ∨ s.power.fastActive = true) → exec .fastLimiterEngage s = .next s) ∧
  (∀ n s, n < 48 → s.power.on = true → s.power.shutdown = false → Pre.noWide s →
    ∃ t, exec (.thermalShutdown n) s = .next t ∧ ModuleCleared s t ∧ t.power.shutdown = true ∧
      t.resets.map (·.scope) = [3] ∧ PostsNone s t ∧
      ∀ fn, (t.ctl fn).cfs = ((s.ctl fn).en || (s.ctl fn).cfs)) ∧
  (∀ n s, (48 ≤ n ∨ s.power.on = false ∨ s.power.shutdown = true) → exec (.thermalShutdown n) s = .next s) ∧
  (∀ s, exec .thermalShutdownExit s = .next (if s.power.shutdown = true ∧ s.cool = true then
    s.modPower fun p => { p with shutdown := false } else s)) ∧
  (∀ n m s, m = tget {} s.mgmt.monitors n → m.capturing = true → m.start + windowOf m.live0 ≤ s.now →
    ∃ t x, exec (.assayWindowClose n) s = .next t ∧ x = tget {} t.mgmt.monitors n ∧
      x.ring = (m.snapshot n :: m.ring).take 4 ∧ x.windows = m.windows + 1 ∧ x.count = 0 ∧ x.sum = 0 ∧
      x.bins = List.replicate 32 0 ∧ (m.pending = false → x.live0 = m.live0 ∧ x.start ≤ s.now ∧
        s.now < x.start + windowOf m.live0 ∧ x.start % windowOf m.live0 = 0) ∧
      (m.pending = true → x.live0 = m.cfg0 ∧ x.live1 = m.cfg1 ∧ x.changed = true) ∧
      (∀ k, k ≠ n → tget {} t.mgmt.monitors k = tget {} s.mgmt.monitors k) ∧ CoreSame s t ∧
      t.regions = s.regions ∧ t.host = s.host) ∧
  (∀ n m s, m = tget {} s.mgmt.monitors n →
    (m.capturing = true ∧ s.now < m.start + windowOf m.live0 ∨ m.capturing = false ∧ m.enabled = false) →
    ∃ t, exec (.assayWindowClose n) s = .next t ∧
      (∀ k, tget {} t.mgmt.monitors k = tget {} s.mgmt.monitors k) ∧ CoreSame s t ∧ t.regions = s.regions ∧
      t.host = s.host) ∧
  (∀ k s, s.power.on = true → ∃ t, exec (.seamLinkRetrain k) s = .next t ∧ 1 + k ∈ t.mgmt.identityDue ∧
    (∀ i, i ≠ 1 + k → (i ∈ t.mgmt.identityDue ↔ i ∈ s.mgmt.identityDue)) ∧ CoreSame s t ∧ t.host = s.host) ∧
  (∀ k s, s.power.on = false → exec (.seamLinkRetrain k) s = .next s) ∧
  (∀ s, exec .uptimeWrite s = .next (if s.mgmt.uptimeSaved + 10800000 ≤ s.mgmt.uptime then
    s.modMgmt fun m => { m with uptimeSaved := m.uptime } else s))

/-- For every state whose tensor space and bench stores are in the model's canonical form (addresses strictly
rising, no entry 0x00, so that equal contents are equal data), and every command at the front of its queue, a
step that answers a next state leaves them in that form. (The form is the model's own representation; that it
holds after reset is stated in ResetState.) (Rests on parts of R26, R164, R188, 00_scope.md.) -/
def Obligations.MemoriesStayCanonical : Prop :=
  ∀ s t : State, MemoriesCanonical s → step s = .next t → MemoriesCanonical t

/-- For every state whose life-cycle record holds at most 31 entries, each PROVISIONED, DEPLOYED or DEBUG, and
every command, after a step that answers a next state the record still is so, begins with the entries it had,
and a decommissioned module stays decommissioned; the security version is not lower, no revoked vendor slot is
restored, and what the module was made with is unchanged. (Rests on parts of R393, R396, R398, R409, R410,
R443.) -/
def Obligations.FusesOnlyGrow : Prop :=
  ∀ s t : State, LifeCycleSound s.sec → step s = .next t →
    LifeCycleSound t.sec ∧ s.sec.lcRecord <+: t.sec.lcRecord ∧
    (s.sec.decommissioned = true → t.sec.decommissioned = true ∧ t.lifeCycle = .decommissioned) ∧
    s.sec.svn ≤ t.sec.svn ∧ (∀ k, s.sec.slotRevoked.testBit k = true → t.sec.slotRevoked.testBit k = true) ∧
    t.mfg = s.mfg
end

