-- ==== Sys2Proof/Laws/Memory.lean ====
section
/-! SUPPORT. The laws of tables and byte memories: a read after a write, everything else left alone, and the
canonical form kept by every operation. -/

namespace Sys2Proof

/-! ## Tables -/

@[simp] theorem tget_nil {α : Type} (d : α) (k : Nat) : tget d [] k = d := rfl

theorem tget_tdel_same {α : Type} (d : α) (t : Table α) (k : Nat) : tget d (tdel t k) k = d := by
  induction t with
  | nil => rfl
  | cons e r ih =>
    obtain ⟨a, x⟩ := e
    by_cases h : a = k
    · simpa [tdel, h] using ih
    · simpa [tdel, h, tget] using ih

theorem tget_tdel_other {α : Type} (d : α) (t : Table α) (k j : Nat) (h : j ≠ k) :
    tget d (tdel t k) j = tget d t j := by
  induction t with
  | nil => rfl
  | cons e r ih =>
    obtain ⟨a, x⟩ := e
    by_cases hk : a = k
    · have : a ≠ j := fun e => h (by rw [← e, hk])
      simp [tdel, hk, tget, ih, (hk ▸ this : k ≠ j)]
    · simp [tdel, hk, tget, ih]

theorem tget_tins_other {α : Type} (d : α) (t : Table α) (k j : Nat) (v : α) (h : j ≠ k) :
    tget d (tins k v t) j = tget d t j := by
  have h' : k ≠ j := fun e => h e.symm
  induction t with
  | nil => simp [tins, tget, h']
  | cons e r ih =>
    obtain ⟨a, x⟩ := e
    unfold tins
    split
    · simp [tget, h']
    · simp [tget, ih]

theorem tget_tins_tdel {α : Type} (d : α) (t : Table α) (k : Nat) (v : α) :
    tget d (tins k v (tdel t k)) k = v := by
  induction t with
  | nil => simp [tdel, tins, tget]
  | cons e r ih =>
    obtain ⟨a, x⟩ := e
    by_cases hk : a = k
    · simpa [tdel, hk] using ih
    · simp only [tdel, hk, if_false]
      unfold tins
      split
      · simp [tget]
      · simpa [tget, hk] using ih

/-- Reading a table where it has been written gives the value written. -/
@[simp] theorem tget_tset_same {α : Type} (d : α) (t : Table α) (k : Nat) (v : α) :
    tget d (tset t k v) k = v := tget_tins_tdel d t k v

/-- Writing a table leaves every other key alone. -/
@[simp] theorem tget_tset_other {α : Type} (d : α) (t : Table α) (k j : Nat) (v : α) (h : j ≠ k) :
    tget d (tset t k v) j = tget d t j := by
  rw [tset, tget_tins_other d _ k j v h, tget_tdel_other d t k j h]

@[simp] theorem tget_tmod_same {α : Type} (d : α) (t : Table α) (k : Nat) (f : α → α) :
    tget d (tmod d t k f) k = f (tget d t k) := by simp [tmod]

@[simp] theorem tget_tmod_other {α : Type} (d : α) (t : Table α) (k j : Nat) (f : α → α) (h : j ≠ k) :
    tget d (tmod d t k f) j = tget d t j := by simp [tmod, h]

/-- A table whose values are changed one by one: where the default is kept, a read is the changed value. -/
theorem tget_map {α : Type} (d : α) (t : Table α) (k : Nat) (f : α → α) (h : f d = d) :
    tget d (t.map fun e => (e.1, f e.2)) k = f (tget d t k) := by
  induction t with
  | nil => simp [h]
  | cons e r ih =>
    obtain ⟨a, x⟩ := e
    by_cases hk : a = k <;> simp [tget, hk, ih]

/-! ## Reading a byte after a write -/

/-- A byte written reads back. -/
@[simp] theorem Mem.get_put_same (m : Mem) (a : Nat) (v : Byte) : (m.put a v).get a = v := by
  unfold Mem.put Mem.get
  split
  · next h => rw [tget_tdel_same, h]
  · exact tget_tins_tdel 0 m a v

/-- Writing a byte leaves every other address alone. -/
@[simp] theorem Mem.get_put_other (m : Mem) (a b : Nat) (v : Byte) (h : b ≠ a) :
    (m.put a v).get b = m.get b := by
  unfold Mem.put Mem.get
  split
  · exact tget_tdel_other 0 m a b h
  · rw [tget_tins_other 0 _ a b v h, tget_tdel_other 0 m a b h]

/-- Writing bytes leaves every address outside them alone. -/
theorem Mem.get_putBytes_other (bs : List Byte) (m : Mem) (a b : Nat) (h : b < a ∨ a + bs.length ≤ b) :
    (m.putBytes a bs).get b = m.get b := by
  induction bs generalizing m a with
  | nil => rfl
  | cons x xs ih =>
    simp only [List.length_cons] at h
    rw [Mem.putBytes, ih (m.put a x) (a + 1) (by omega), Mem.get_put_other _ _ _ _ (by omega)]

/-- Bytes written read back in order. -/
theorem Mem.get_putBytes_same (bs : List Byte) (m : Mem) (a i : Nat) (h : i < bs.length) :
    (m.putBytes a bs).get (a + i) = bs.getD i 0 := by
  induction bs generalizing m a i with
  | nil => simp at h
  | cons x xs ih =>
    rw [Mem.putBytes]
    cases i with
    | zero => rw [Mem.get_putBytes_other xs _ _ _ (by omega), Nat.add_zero, Mem.get_put_same]; rfl
    | succ j =>
      rw [show a + (j + 1) = a + 1 + j by omega, ih (m.put a x) (a + 1) j (by simpa using h)]; simp

theorem tget_filter_of_keep {α : Type} (d : α) (m : Table α) (f : Nat → Bool) (b : Nat) (h : f b = true) :
    tget d (m.filter fun e => f e.1) b = tget d m b := by
  induction m with
  | nil => rfl
  | cons e r ih =>
    obtain ⟨a, x⟩ := e
    by_cases hk : a = b
    · subst hk; simp [tget, h]
    · by_cases hf : f a = true <;> simp [tget, hk, hf, ih]

theorem tget_filter_of_drop {α : Type} (d : α) (m : Table α) (f : Nat → Bool) (b : Nat) (h : f b = false) :
    tget d (m.filter fun e => f e.1) b = d := by
  induction m with
  | nil => rfl
  | cons e r ih =>
    obtain ⟨a, x⟩ := e
    by_cases hk : a = b
    · subst hk; simp [h, ih]
    · by_cases hf : f a = true <;> simp [tget, hk, hf, ih]

/-- A cleared range reads 0x00 and the rest as before. -/
theorem Mem.get_clear (m : Mem) (a n b : Nat) :
    (m.clear a n).get b = if b < a ∨ a + n ≤ b then m.get b else 0 := by
  unfold Mem.clear Mem.get
  split
  · next h => exact tget_filter_of_keep 0 m (fun x => decide (x < a ∨ a + n ≤ x)) b (by simpa using h)
  · next h => exact tget_filter_of_drop 0 m (fun x => decide (x < a ∨ a + n ≤ x)) b (by simpa using h)

theorem Mem.get_putAll_other (src : List (Nat × Byte)) (m : Mem) (b : Nat) (h : ∀ e ∈ src, e.1 ≠ b) :
    (Mem.putAll m src).get b = m.get b := by
  induction src generalizing m with
  | nil => rfl
  | cons e r ih =>
    obtain ⟨a, v⟩ := e
    rw [Mem.putAll, ih _ (fun x hx => h x (List.mem_cons_of_mem _ hx)),
      Mem.get_put_other _ _ _ _ (fun hb => h (a, v) (by simp) hb.symm)]

/-- Every entry of a slice lies in its destination range. -/
theorem Mem.mem_slice {m : Mem} {a n b : Nat} {e : Nat × Byte} (h : e ∈ m.slice a n b) :
    b ≤ e.1 ∧ e.1 < b + n := by
  unfold Mem.slice at h
  rw [List.mem_filterMap] at h
  obtain ⟨x, -, hx⟩ := h
  split at hx
  · simp only [Option.some.injEq] at hx; subst hx; simp only; omega
  · cases hx

/-- A copy leaves every address outside its destination alone. -/
theorem Mem.get_copyIn_other (m src : Mem) (b a n x : Nat) (h : x < b ∨ b + n ≤ x) :
    (m.copyIn b src a n).get x = m.get x := by
  unfold Mem.copyIn
  rw [Mem.get_putAll_other _ _ _ (fun e he hx => by have := Mem.mem_slice he; omega), Mem.get_clear]
  simp [h]

/-! ## The canonical form -/

theorem Mem.wfFrom_mono {lo lo' : Nat} (h : lo' ≤ lo) (m : Mem) (hw : Mem.wfFrom lo m = true) :
    Mem.wfFrom lo' m = true := by
  cases m with
  | nil => rfl
  | cons e r =>
    simp only [Mem.wfFrom, Bool.and_eq_true, decide_eq_true_eq] at hw ⊢
    exact ⟨⟨by omega, hw.1.2⟩, hw.2⟩

theorem Mem.wfFrom_tdel {lo k : Nat} (m : Mem) (h : Mem.wfFrom lo m = true) :
    Mem.wfFrom lo (tdel m k) = true := by
  induction m generalizing lo with
  | nil => rfl
  | cons e r ih =>
    obtain ⟨a, v⟩ := e
    simp only [Mem.wfFrom, Bool.and_eq_true, decide_eq_true_eq] at h
    by_cases hk : a = k
    · simpa [tdel, hk] using Mem.wfFrom_mono (by omega) _ (ih h.2)
    · simp only [tdel, hk, if_false, Mem.wfFrom, Bool.and_eq_true, decide_eq_true_eq]
      exact ⟨h.1, ih h.2⟩

theorem Mem.wfFrom_tins_tdel {lo k : Nat} {v : Byte} (hv : v ≠ 0) (hl : lo ≤ k) (m : Mem)
    (h : Mem.wfFrom lo m = true) : Mem.wfFrom lo (tins k v (tdel m k)) = true := by
  induction m generalizing lo with
  | nil => simp only [tdel, tins, Mem.wfFrom, Bool.and_eq_true, decide_eq_true_eq]; exact ⟨⟨hl, hv⟩, trivial⟩
  | cons e r ih =>
    obtain ⟨a, x⟩ := e
    simp only [Mem.wfFrom, Bool.and_eq_true, decide_eq_true_eq] at h
    by_cases hk : a = k
    · simp only [tdel, hk, if_true]
      exact ih hl (Mem.wfFrom_mono (by omega) _ h.2)
    · simp only [tdel, hk, if_false, tins]
      split
      · next hlt =>
        simp only [Mem.wfFrom, Bool.and_eq_true, decide_eq_true_eq]
        exact ⟨⟨hl, hv⟩, ⟨by omega, h.1.2⟩, Mem.wfFrom_tdel r h.2⟩
      · simp only [Mem.wfFrom, Bool.and_eq_true, decide_eq_true_eq]
        exact ⟨h.1, ih (by omega) h.2⟩

/-- A byte write keeps the canonical form. -/
theorem Mem.put_wf (m : Mem) (a : Nat) (v : Byte) (h : m.wf = true) : (m.put a v).wf = true := by
  unfold Mem.wf at *
  unfold Mem.put
  split
  · exact Mem.wfFrom_tdel m h
  · next hv => exact Mem.wfFrom_tins_tdel hv (Nat.zero_le a) m h

/-- Writing bytes keeps the canonical form. -/
theorem Mem.putBytes_wf (bs : List Byte) (m : Mem) (a : Nat) (h : m.wf = true) :
    (m.putBytes a bs).wf = true := by
  induction bs generalizing m a with
  | nil => exact h
  | cons x xs ih => exact ih _ _ (Mem.put_wf m a x h)

/-- Writing a little-endian number keeps the canonical form. -/
theorem Mem.putLe_wf (m : Mem) (a n v : Nat) (h : m.wf = true) : (m.putLe a n v).wf = true :=
  Mem.putBytes_wf _ m a h

/-- Dropping entries keeps the canonical form. -/
theorem Mem.filter_wf (f : Nat × Byte → Bool) (m : Mem) (h : m.wf = true) :
    Mem.wf (m.filter f) = true := by
  unfold Mem.wf at *
  suffices H : ∀ lo, Mem.wfFrom lo m = true → Mem.wfFrom lo (m.filter f) = true from H 0 h
  clear h
  induction m with
  | nil => intro lo _; rfl
  | cons e r ih =>
    obtain ⟨a, v⟩ := e
    intro lo h
    simp only [Mem.wfFrom, Bool.and_eq_true, decide_eq_true_eq] at h
    by_cases hf : f (a, v) = true
    · simp only [List.filter_cons, hf, if_true, Mem.wfFrom, Bool.and_eq_true, decide_eq_true_eq]
      exact ⟨h.1, ih _ h.2⟩
    · simp only [List.filter_cons, hf]
      exact Mem.wfFrom_mono (by omega) _ (ih _ h.2)

/-- Clearing a range keeps the canonical form. -/
theorem Mem.clear_wf (m : Mem) (a n : Nat) (h : m.wf = true) : (m.clear a n).wf = true :=
  Mem.filter_wf _ m h

theorem Mem.putAll_wf (src : List (Nat × Byte)) (m : Mem) (h : m.wf = true) :
    (Mem.putAll m src).wf = true := by
  induction src generalizing m with
  | nil => exact h
  | cons e r ih => exact ih _ (Mem.put_wf m e.1 e.2 h)

/-- A copy keeps the canonical form of its destination, whatever its source. -/
theorem Mem.copyIn_wf (m src : Mem) (b a n : Nat) (h : m.wf = true) : (m.copyIn b src a n).wf = true :=
  Mem.putAll_wf _ _ (Mem.clear_wf m b n h)

/-- Bytes put into an empty memory are in canonical form. -/
theorem Mem.ofBytes_wf (bs : List Byte) : (Mem.ofBytes bs).wf = true := Mem.putBytes_wf bs [] 0 rfl

end Sys2Proof
end

