-- ==== Sys2Proof/Laws/State.lean ====
section
/-! SUPPORT. One lemma per field of State and update of a part of it, and per reader and update of another part: all true by
definition, so that no proof unfolds a record update. -/

namespace Sys2Proof.Machine

variable (s : State)

/-! ## modHost -/

@[simp] theorem modHost_host (f : HostPort → HostPort) : (s.modHost f).host = f s.host := rfl
@[simp] theorem modHost_pending (f : HostPort → HostPort) : (s.modHost f).pending = s.pending := rfl
@[simp] theorem modHost_mfg (f : HostPort → HostPort) : (s.modHost f).mfg = s.mfg := rfl
@[simp] theorem modHost_clk (f : HostPort → HostPort) : (s.modHost f).clk = s.clk := rfl
@[simp] theorem modHost_benches (f : HostPort → HostPort) : (s.modHost f).benches = s.benches := rfl
@[simp] theorem modHost_regions (f : HostPort → HostPort) : (s.modHost f).regions = s.regions := rfl
@[simp] theorem modHost_ts (f : HostPort → HostPort) : (s.modHost f).ts = s.ts := rfl
@[simp] theorem modHost_flash (f : HostPort → HostPort) : (s.modHost f).flash = s.flash := rfl
@[simp] theorem modHost_scans (f : HostPort → HostPort) : (s.modHost f).scans = s.scans := rfl
@[simp] theorem modHost_fabric (f : HostPort → HostPort) : (s.modHost f).fabric = s.fabric := rfl
@[simp] theorem modHost_ckpt (f : HostPort → HostPort) : (s.modHost f).ckpt = s.ckpt := rfl
@[simp] theorem modHost_sec (f : HostPort → HostPort) : (s.modHost f).sec = s.sec := rfl
@[simp] theorem modHost_mgmt (f : HostPort → HostPort) : (s.modHost f).mgmt = s.mgmt := rfl
@[simp] theorem modHost_power (f : HostPort → HostPort) : (s.modHost f).power = s.power := rfl
@[simp] theorem modHost_resets (f : HostPort → HostPort) : (s.modHost f).resets = s.resets := rfl
@[simp] theorem modHost_bench (f : HostPort → HostPort) (x : Nat) : (s.modHost f).bench x = s.bench x := rfl
@[simp] theorem modHost_region (f : HostPort → HostPort) (x : Nat) : (s.modHost f).region x = s.region x := rfl
@[simp] theorem modHost_die (f : HostPort → HostPort) (x : Nat) : (s.modHost f).die x = s.die x := rfl
@[simp] theorem modHost_extent (f : HostPort → HostPort) (x y : Nat) : (s.modHost f).extent x y = s.extent x y := rfl
@[simp] theorem modHost_port (f : HostPort → HostPort) (x : Nat) : (s.modHost f).port x = s.port x := rfl
@[simp] theorem modHost_stack (f : HostPort → HostPort) (x : Nat) : (s.modHost f).stack x = s.stack x := rfl
@[simp] theorem modHost_blk (f : HostPort → HostPort) (x : Nat) : (s.modHost f).blk x = s.blk x := rfl
@[simp] theorem modHost_arr (f : HostPort → HostPort) (x y : Nat) : (s.modHost f).arr x y = s.arr x y := rfl
@[simp] theorem modHost_scan (f : HostPort → HostPort) (x : Nat) : (s.modHost f).scan x = s.scan x := rfl
@[simp] theorem modHost_now (f : HostPort → HostPort) : (s.modHost f).now = s.now := rfl
@[simp] theorem modHost_dieNow (f : HostPort → HostPort) (x : Nat) : (s.modHost f).dieNow x = s.dieNow x := rfl
@[simp] theorem modHost_lifeCycle (f : HostPort → HostPort) : (s.modHost f).lifeCycle = s.lifeCycle := rfl

/-! ## modTs -/

@[simp] theorem modTs_ts (f : TensorSpace → TensorSpace) : (s.modTs f).ts = f s.ts := rfl
@[simp] theorem modTs_pending (f : TensorSpace → TensorSpace) : (s.modTs f).pending = s.pending := rfl
@[simp] theorem modTs_mfg (f : TensorSpace → TensorSpace) : (s.modTs f).mfg = s.mfg := rfl
@[simp] theorem modTs_clk (f : TensorSpace → TensorSpace) : (s.modTs f).clk = s.clk := rfl
@[simp] theorem modTs_host (f : TensorSpace → TensorSpace) : (s.modTs f).host = s.host := rfl
@[simp] theorem modTs_benches (f : TensorSpace → TensorSpace) : (s.modTs f).benches = s.benches := rfl
@[simp] theorem modTs_regions (f : TensorSpace → TensorSpace) : (s.modTs f).regions = s.regions := rfl
@[simp] theorem modTs_flash (f : TensorSpace → TensorSpace) : (s.modTs f).flash = s.flash := rfl
@[simp] theorem modTs_scans (f : TensorSpace → TensorSpace) : (s.modTs f).scans = s.scans := rfl
@[simp] theorem modTs_fabric (f : TensorSpace → TensorSpace) : (s.modTs f).fabric = s.fabric := rfl
@[simp] theorem modTs_ckpt (f : TensorSpace → TensorSpace) : (s.modTs f).ckpt = s.ckpt := rfl
@[simp] theorem modTs_sec (f : TensorSpace → TensorSpace) : (s.modTs f).sec = s.sec := rfl
@[simp] theorem modTs_mgmt (f : TensorSpace → TensorSpace) : (s.modTs f).mgmt = s.mgmt := rfl
@[simp] theorem modTs_power (f : TensorSpace → TensorSpace) : (s.modTs f).power = s.power := rfl
@[simp] theorem modTs_resets (f : TensorSpace → TensorSpace) : (s.modTs f).resets = s.resets := rfl
@[simp] theorem modTs_bench (f : TensorSpace → TensorSpace) (x : Nat) : (s.modTs f).bench x = s.bench x := rfl
@[simp] theorem modTs_region (f : TensorSpace → TensorSpace) (x : Nat) : (s.modTs f).region x = s.region x := rfl
@[simp] theorem modTs_ctl (f : TensorSpace → TensorSpace) (x : Nat) : (s.modTs f).ctl x = s.ctl x := rfl
@[simp] theorem modTs_ns (f : TensorSpace → TensorSpace) (x : Nat) : (s.modTs f).ns x = s.ns x := rfl
@[simp] theorem modTs_prog (f : TensorSpace → TensorSpace) (x : Nat) : (s.modTs f).prog x = s.prog x := rfl
@[simp] theorem modTs_op (f : TensorSpace → TensorSpace) (x : Nat) : (s.modTs f).op x = s.op x := rfl
@[simp] theorem modTs_port (f : TensorSpace → TensorSpace) (x : Nat) : (s.modTs f).port x = s.port x := rfl
@[simp] theorem modTs_stack (f : TensorSpace → TensorSpace) (x : Nat) : (s.modTs f).stack x = s.stack x := rfl
@[simp] theorem modTs_blk (f : TensorSpace → TensorSpace) (x : Nat) : (s.modTs f).blk x = s.blk x := rfl
@[simp] theorem modTs_arr (f : TensorSpace → TensorSpace) (x y : Nat) : (s.modTs f).arr x y = s.arr x y := rfl
@[simp] theorem modTs_scan (f : TensorSpace → TensorSpace) (x : Nat) : (s.modTs f).scan x = s.scan x := rfl
@[simp] theorem modTs_now (f : TensorSpace → TensorSpace) : (s.modTs f).now = s.now := rfl
@[simp] theorem modTs_dieNow (f : TensorSpace → TensorSpace) (x : Nat) : (s.modTs f).dieNow x = s.dieNow x := rfl
@[simp] theorem modTs_lifeCycle (f : TensorSpace → TensorSpace) : (s.modTs f).lifeCycle = s.lifeCycle := rfl

/-! ## modFlash -/

@[simp] theorem modFlash_flash (f : Flash → Flash) : (s.modFlash f).flash = f s.flash := rfl
@[simp] theorem modFlash_pending (f : Flash → Flash) : (s.modFlash f).pending = s.pending := rfl
@[simp] theorem modFlash_mfg (f : Flash → Flash) : (s.modFlash f).mfg = s.mfg := rfl
@[simp] theorem modFlash_clk (f : Flash → Flash) : (s.modFlash f).clk = s.clk := rfl
@[simp] theorem modFlash_host (f : Flash → Flash) : (s.modFlash f).host = s.host := rfl
@[simp] theorem modFlash_benches (f : Flash → Flash) : (s.modFlash f).benches = s.benches := rfl
@[simp] theorem modFlash_regions (f : Flash → Flash) : (s.modFlash f).regions = s.regions := rfl
@[simp] theorem modFlash_ts (f : Flash → Flash) : (s.modFlash f).ts = s.ts := rfl
@[simp] theorem modFlash_scans (f : Flash → Flash) : (s.modFlash f).scans = s.scans := rfl
@[simp] theorem modFlash_fabric (f : Flash → Flash) : (s.modFlash f).fabric = s.fabric := rfl
@[simp] theorem modFlash_ckpt (f : Flash → Flash) : (s.modFlash f).ckpt = s.ckpt := rfl
@[simp] theorem modFlash_sec (f : Flash → Flash) : (s.modFlash f).sec = s.sec := rfl
@[simp] theorem modFlash_mgmt (f : Flash → Flash) : (s.modFlash f).mgmt = s.mgmt := rfl
@[simp] theorem modFlash_power (f : Flash → Flash) : (s.modFlash f).power = s.power := rfl
@[simp] theorem modFlash_resets (f : Flash → Flash) : (s.modFlash f).resets = s.resets := rfl
@[simp] theorem modFlash_bench (f : Flash → Flash) (x : Nat) : (s.modFlash f).bench x = s.bench x := rfl
@[simp] theorem modFlash_region (f : Flash → Flash) (x : Nat) : (s.modFlash f).region x = s.region x := rfl
@[simp] theorem modFlash_die (f : Flash → Flash) (x : Nat) : (s.modFlash f).die x = s.die x := rfl
@[simp] theorem modFlash_extent (f : Flash → Flash) (x y : Nat) : (s.modFlash f).extent x y = s.extent x y := rfl
@[simp] theorem modFlash_ctl (f : Flash → Flash) (x : Nat) : (s.modFlash f).ctl x = s.ctl x := rfl
@[simp] theorem modFlash_ns (f : Flash → Flash) (x : Nat) : (s.modFlash f).ns x = s.ns x := rfl
@[simp] theorem modFlash_prog (f : Flash → Flash) (x : Nat) : (s.modFlash f).prog x = s.prog x := rfl
@[simp] theorem modFlash_op (f : Flash → Flash) (x : Nat) : (s.modFlash f).op x = s.op x := rfl
@[simp] theorem modFlash_port (f : Flash → Flash) (x : Nat) : (s.modFlash f).port x = s.port x := rfl
@[simp] theorem modFlash_arr (f : Flash → Flash) (x y : Nat) : (s.modFlash f).arr x y = s.arr x y := rfl
@[simp] theorem modFlash_scan (f : Flash → Flash) (x : Nat) : (s.modFlash f).scan x = s.scan x := rfl
@[simp] theorem modFlash_now (f : Flash → Flash) : (s.modFlash f).now = s.now := rfl
@[simp] theorem modFlash_dieNow (f : Flash → Flash) (x : Nat) : (s.modFlash f).dieNow x = s.dieNow x := rfl
@[simp] theorem modFlash_lifeCycle (f : Flash → Flash) : (s.modFlash f).lifeCycle = s.lifeCycle := rfl

/-! ## modFabric -/

@[simp] theorem modFabric_fabric (f : Fabric → Fabric) : (s.modFabric f).fabric = f s.fabric := rfl
@[simp] theorem modFabric_pending (f : Fabric → Fabric) : (s.modFabric f).pending = s.pending := rfl
@[simp] theorem modFabric_mfg (f : Fabric → Fabric) : (s.modFabric f).mfg = s.mfg := rfl
@[simp] theorem modFabric_clk (f : Fabric → Fabric) : (s.modFabric f).clk = s.clk := rfl
@[simp] theorem modFabric_host (f : Fabric → Fabric) : (s.modFabric f).host = s.host := rfl
@[simp] theorem modFabric_benches (f : Fabric → Fabric) : (s.modFabric f).benches = s.benches := rfl
@[simp] theorem modFabric_regions (f : Fabric → Fabric) : (s.modFabric f).regions = s.regions := rfl
@[simp] theorem modFabric_ts (f : Fabric → Fabric) : (s.modFabric f).ts = s.ts := rfl
@[simp] theorem modFabric_flash (f : Fabric → Fabric) : (s.modFabric f).flash = s.flash := rfl
@[simp] theorem modFabric_scans (f : Fabric → Fabric) : (s.modFabric f).scans = s.scans := rfl
@[simp] theorem modFabric_ckpt (f : Fabric → Fabric) : (s.modFabric f).ckpt = s.ckpt := rfl
@[simp] theorem modFabric_sec (f : Fabric → Fabric) : (s.modFabric f).sec = s.sec := rfl
@[simp] theorem modFabric_mgmt (f : Fabric → Fabric) : (s.modFabric f).mgmt = s.mgmt := rfl
@[simp] theorem modFabric_power (f : Fabric → Fabric) : (s.modFabric f).power = s.power := rfl
@[simp] theorem modFabric_resets (f : Fabric → Fabric) : (s.modFabric f).resets = s.resets := rfl
@[simp] theorem modFabric_bench (f : Fabric → Fabric) (x : Nat) : (s.modFabric f).bench x = s.bench x := rfl
@[simp] theorem modFabric_region (f : Fabric → Fabric) (x : Nat) : (s.modFabric f).region x = s.region x := rfl
@[simp] theorem modFabric_die (f : Fabric → Fabric) (x : Nat) : (s.modFabric f).die x = s.die x := rfl
@[simp] theorem modFabric_extent (f : Fabric → Fabric) (x y : Nat) : (s.modFabric f).extent x y = s.extent x y := rfl
@[simp] theorem modFabric_ctl (f : Fabric → Fabric) (x : Nat) : (s.modFabric f).ctl x = s.ctl x := rfl
@[simp] theorem modFabric_ns (f : Fabric → Fabric) (x : Nat) : (s.modFabric f).ns x = s.ns x := rfl
@[simp] theorem modFabric_prog (f : Fabric → Fabric) (x : Nat) : (s.modFabric f).prog x = s.prog x := rfl
@[simp] theorem modFabric_op (f : Fabric → Fabric) (x : Nat) : (s.modFabric f).op x = s.op x := rfl
@[simp] theorem modFabric_stack (f : Fabric → Fabric) (x : Nat) : (s.modFabric f).stack x = s.stack x := rfl
@[simp] theorem modFabric_blk (f : Fabric → Fabric) (x : Nat) : (s.modFabric f).blk x = s.blk x := rfl
@[simp] theorem modFabric_arr (f : Fabric → Fabric) (x y : Nat) : (s.modFabric f).arr x y = s.arr x y := rfl
@[simp] theorem modFabric_scan (f : Fabric → Fabric) (x : Nat) : (s.modFabric f).scan x = s.scan x := rfl
@[simp] theorem modFabric_now (f : Fabric → Fabric) : (s.modFabric f).now = s.now := rfl
@[simp] theorem modFabric_dieNow (f : Fabric → Fabric) (x : Nat) : (s.modFabric f).dieNow x = s.dieNow x := rfl
@[simp] theorem modFabric_lifeCycle (f : Fabric → Fabric) : (s.modFabric f).lifeCycle = s.lifeCycle := rfl

/-! ## modCkpt -/

@[simp] theorem modCkpt_ckpt (f : Ckpt → Ckpt) : (s.modCkpt f).ckpt = f s.ckpt := rfl
@[simp] theorem modCkpt_pending (f : Ckpt → Ckpt) : (s.modCkpt f).pending = s.pending := rfl
@[simp] theorem modCkpt_mfg (f : Ckpt → Ckpt) : (s.modCkpt f).mfg = s.mfg := rfl
@[simp] theorem modCkpt_clk (f : Ckpt → Ckpt) : (s.modCkpt f).clk = s.clk := rfl
@[simp] theorem modCkpt_host (f : Ckpt → Ckpt) : (s.modCkpt f).host = s.host := rfl
@[simp] theorem modCkpt_benches (f : Ckpt → Ckpt) : (s.modCkpt f).benches = s.benches := rfl
@[simp] theorem modCkpt_regions (f : Ckpt → Ckpt) : (s.modCkpt f).regions = s.regions := rfl
@[simp] theorem modCkpt_ts (f : Ckpt → Ckpt) : (s.modCkpt f).ts = s.ts := rfl
@[simp] theorem modCkpt_flash (f : Ckpt → Ckpt) : (s.modCkpt f).flash = s.flash := rfl
@[simp] theorem modCkpt_scans (f : Ckpt → Ckpt) : (s.modCkpt f).scans = s.scans := rfl
@[simp] theorem modCkpt_fabric (f : Ckpt → Ckpt) : (s.modCkpt f).fabric = s.fabric := rfl
@[simp] theorem modCkpt_sec (f : Ckpt → Ckpt) : (s.modCkpt f).sec = s.sec := rfl
@[simp] theorem modCkpt_mgmt (f : Ckpt → Ckpt) : (s.modCkpt f).mgmt = s.mgmt := rfl
@[simp] theorem modCkpt_power (f : Ckpt → Ckpt) : (s.modCkpt f).power = s.power := rfl
@[simp] theorem modCkpt_resets (f : Ckpt → Ckpt) : (s.modCkpt f).resets = s.resets := rfl
@[simp] theorem modCkpt_bench (f : Ckpt → Ckpt) (x : Nat) : (s.modCkpt f).bench x = s.bench x := rfl
@[simp] theorem modCkpt_region (f : Ckpt → Ckpt) (x : Nat) : (s.modCkpt f).region x = s.region x := rfl
@[simp] theorem modCkpt_die (f : Ckpt → Ckpt) (x : Nat) : (s.modCkpt f).die x = s.die x := rfl
@[simp] theorem modCkpt_extent (f : Ckpt → Ckpt) (x y : Nat) : (s.modCkpt f).extent x y = s.extent x y := rfl
@[simp] theorem modCkpt_ctl (f : Ckpt → Ckpt) (x : Nat) : (s.modCkpt f).ctl x = s.ctl x := rfl
@[simp] theorem modCkpt_ns (f : Ckpt → Ckpt) (x : Nat) : (s.modCkpt f).ns x = s.ns x := rfl
@[simp] theorem modCkpt_prog (f : Ckpt → Ckpt) (x : Nat) : (s.modCkpt f).prog x = s.prog x := rfl
@[simp] theorem modCkpt_op (f : Ckpt → Ckpt) (x : Nat) : (s.modCkpt f).op x = s.op x := rfl
@[simp] theorem modCkpt_port (f : Ckpt → Ckpt) (x : Nat) : (s.modCkpt f).port x = s.port x := rfl
@[simp] theorem modCkpt_stack (f : Ckpt → Ckpt) (x : Nat) : (s.modCkpt f).stack x = s.stack x := rfl
@[simp] theorem modCkpt_blk (f : Ckpt → Ckpt) (x : Nat) : (s.modCkpt f).blk x = s.blk x := rfl
@[simp] theorem modCkpt_arr (f : Ckpt → Ckpt) (x y : Nat) : (s.modCkpt f).arr x y = s.arr x y := rfl
@[simp] theorem modCkpt_scan (f : Ckpt → Ckpt) (x : Nat) : (s.modCkpt f).scan x = s.scan x := rfl
@[simp] theorem modCkpt_now (f : Ckpt → Ckpt) : (s.modCkpt f).now = s.now := rfl
@[simp] theorem modCkpt_dieNow (f : Ckpt → Ckpt) (x : Nat) : (s.modCkpt f).dieNow x = s.dieNow x := rfl
@[simp] theorem modCkpt_lifeCycle (f : Ckpt → Ckpt) : (s.modCkpt f).lifeCycle = s.lifeCycle := rfl

/-! ## modSec -/

@[simp] theorem modSec_sec (f : Security → Security) : (s.modSec f).sec = f s.sec := rfl
@[simp] theorem modSec_pending (f : Security → Security) : (s.modSec f).pending = s.pending := rfl
@[simp] theorem modSec_mfg (f : Security → Security) : (s.modSec f).mfg = s.mfg := rfl
@[simp] theorem modSec_clk (f : Security → Security) : (s.modSec f).clk = s.clk := rfl
@[simp] theorem modSec_host (f : Security → Security) : (s.modSec f).host = s.host := rfl
@[simp] theorem modSec_benches (f : Security → Security) : (s.modSec f).benches = s.benches := rfl
@[simp] theorem modSec_regions (f : Security → Security) : (s.modSec f).regions = s.regions := rfl
@[simp] theorem modSec_ts (f : Security → Security) : (s.modSec f).ts = s.ts := rfl
@[simp] theorem modSec_flash (f : Security → Security) : (s.modSec f).flash = s.flash := rfl
@[simp] theorem modSec_scans (f : Security → Security) : (s.modSec f).scans = s.scans := rfl
@[simp] theorem modSec_fabric (f : Security → Security) : (s.modSec f).fabric = s.fabric := rfl
@[simp] theorem modSec_ckpt (f : Security → Security) : (s.modSec f).ckpt = s.ckpt := rfl
@[simp] theorem modSec_mgmt (f : Security → Security) : (s.modSec f).mgmt = s.mgmt := rfl
@[simp] theorem modSec_power (f : Security → Security) : (s.modSec f).power = s.power := rfl
@[simp] theorem modSec_resets (f : Security → Security) : (s.modSec f).resets = s.resets := rfl
@[simp] theorem modSec_bench (f : Security → Security) (x : Nat) : (s.modSec f).bench x = s.bench x := rfl
@[simp] theorem modSec_region (f : Security → Security) (x : Nat) : (s.modSec f).region x = s.region x := rfl
@[simp] theorem modSec_die (f : Security → Security) (x : Nat) : (s.modSec f).die x = s.die x := rfl
@[simp] theorem modSec_extent (f : Security → Security) (x y : Nat) : (s.modSec f).extent x y = s.extent x y := rfl
@[simp] theorem modSec_ctl (f : Security → Security) (x : Nat) : (s.modSec f).ctl x = s.ctl x := rfl
@[simp] theorem modSec_ns (f : Security → Security) (x : Nat) : (s.modSec f).ns x = s.ns x := rfl
@[simp] theorem modSec_prog (f : Security → Security) (x : Nat) : (s.modSec f).prog x = s.prog x := rfl
@[simp] theorem modSec_op (f : Security → Security) (x : Nat) : (s.modSec f).op x = s.op x := rfl
@[simp] theorem modSec_port (f : Security → Security) (x : Nat) : (s.modSec f).port x = s.port x := rfl
@[simp] theorem modSec_stack (f : Security → Security) (x : Nat) : (s.modSec f).stack x = s.stack x := rfl
@[simp] theorem modSec_blk (f : Security → Security) (x : Nat) : (s.modSec f).blk x = s.blk x := rfl
@[simp] theorem modSec_arr (f : Security → Security) (x y : Nat) : (s.modSec f).arr x y = s.arr x y := rfl
@[simp] theorem modSec_scan (f : Security → Security) (x : Nat) : (s.modSec f).scan x = s.scan x := rfl
@[simp] theorem modSec_now (f : Security → Security) : (s.modSec f).now = s.now := rfl
@[simp] theorem modSec_dieNow (f : Security → Security) (x : Nat) : (s.modSec f).dieNow x = s.dieNow x := rfl

/-! ## modMgmt -/

@[simp] theorem modMgmt_mgmt (f : Mgmt → Mgmt) : (s.modMgmt f).mgmt = f s.mgmt := rfl
@[simp] theorem modMgmt_pending (f : Mgmt → Mgmt) : (s.modMgmt f).pending = s.pending := rfl
@[simp] theorem modMgmt_mfg (f : Mgmt → Mgmt) : (s.modMgmt f).mfg = s.mfg := rfl
@[simp] theorem modMgmt_clk (f : Mgmt → Mgmt) : (s.modMgmt f).clk = s.clk := rfl
@[simp] theorem modMgmt_host (f : Mgmt → Mgmt) : (s.modMgmt f).host = s.host := rfl
@[simp] theorem modMgmt_benches (f : Mgmt → Mgmt) : (s.modMgmt f).benches = s.benches := rfl
@[simp] theorem modMgmt_regions (f : Mgmt → Mgmt) : (s.modMgmt f).regions = s.regions := rfl
@[simp] theorem modMgmt_ts (f : Mgmt → Mgmt) : (s.modMgmt f).ts = s.ts := rfl
@[simp] theorem modMgmt_flash (f : Mgmt → Mgmt) : (s.modMgmt f).flash = s.flash := rfl
@[simp] theorem modMgmt_scans (f : Mgmt → Mgmt) : (s.modMgmt f).scans = s.scans := rfl
@[simp] theorem modMgmt_fabric (f : Mgmt → Mgmt) : (s.modMgmt f).fabric = s.fabric := rfl
@[simp] theorem modMgmt_ckpt (f : Mgmt → Mgmt) : (s.modMgmt f).ckpt = s.ckpt := rfl
@[simp] theorem modMgmt_sec (f : Mgmt → Mgmt) : (s.modMgmt f).sec = s.sec := rfl
@[simp] theorem modMgmt_power (f : Mgmt → Mgmt) : (s.modMgmt f).power = s.power := rfl
@[simp] theorem modMgmt_resets (f : Mgmt → Mgmt) : (s.modMgmt f).resets = s.resets := rfl
@[simp] theorem modMgmt_bench (f : Mgmt → Mgmt) (x : Nat) : (s.modMgmt f).bench x = s.bench x := rfl
@[simp] theorem modMgmt_region (f : Mgmt → Mgmt) (x : Nat) : (s.modMgmt f).region x = s.region x := rfl
@[simp] theorem modMgmt_die (f : Mgmt → Mgmt) (x : Nat) : (s.modMgmt f).die x = s.die x := rfl
@[simp] theorem modMgmt_extent (f : Mgmt → Mgmt) (x y : Nat) : (s.modMgmt f).extent x y = s.extent x y := rfl
@[simp] theorem modMgmt_ctl (f : Mgmt → Mgmt) (x : Nat) : (s.modMgmt f).ctl x = s.ctl x := rfl
@[simp] theorem modMgmt_ns (f : Mgmt → Mgmt) (x : Nat) : (s.modMgmt f).ns x = s.ns x := rfl
@[simp] theorem modMgmt_prog (f : Mgmt → Mgmt) (x : Nat) : (s.modMgmt f).prog x = s.prog x := rfl
@[simp] theorem modMgmt_op (f : Mgmt → Mgmt) (x : Nat) : (s.modMgmt f).op x = s.op x := rfl
@[simp] theorem modMgmt_port (f : Mgmt → Mgmt) (x : Nat) : (s.modMgmt f).port x = s.port x := rfl
@[simp] theorem modMgmt_stack (f : Mgmt → Mgmt) (x : Nat) : (s.modMgmt f).stack x = s.stack x := rfl
@[simp] theorem modMgmt_blk (f : Mgmt → Mgmt) (x : Nat) : (s.modMgmt f).blk x = s.blk x := rfl
@[simp] theorem modMgmt_arr (f : Mgmt → Mgmt) (x y : Nat) : (s.modMgmt f).arr x y = s.arr x y := rfl
@[simp] theorem modMgmt_scan (f : Mgmt → Mgmt) (x : Nat) : (s.modMgmt f).scan x = s.scan x := rfl
@[simp] theorem modMgmt_now (f : Mgmt → Mgmt) : (s.modMgmt f).now = s.now := rfl
@[simp] theorem modMgmt_dieNow (f : Mgmt → Mgmt) (x : Nat) : (s.modMgmt f).dieNow x = s.dieNow x := rfl
@[simp] theorem modMgmt_lifeCycle (f : Mgmt → Mgmt) : (s.modMgmt f).lifeCycle = s.lifeCycle := rfl

/-! ## modPower -/

@[simp] theorem modPower_power (f : Power → Power) : (s.modPower f).power = f s.power := rfl
@[simp] theorem modPower_pending (f : Power → Power) : (s.modPower f).pending = s.pending := rfl
@[simp] theorem modPower_mfg (f : Power → Power) : (s.modPower f).mfg = s.mfg := rfl
@[simp] theorem modPower_clk (f : Power → Power) : (s.modPower f).clk = s.clk := rfl
@[simp] theorem modPower_host (f : Power → Power) : (s.modPower f).host = s.host := rfl
@[simp] theorem modPower_benches (f : Power → Power) : (s.modPower f).benches = s.benches := rfl
@[simp] theorem modPower_regions (f : Power → Power) : (s.modPower f).regions = s.regions := rfl
@[simp] theorem modPower_ts (f : Power → Power) : (s.modPower f).ts = s.ts := rfl
@[simp] theorem modPower_flash (f : Power → Power) : (s.modPower f).flash = s.flash := rfl
@[simp] theorem modPower_scans (f : Power → Power) : (s.modPower f).scans = s.scans := rfl
@[simp] theorem modPower_fabric (f : Power → Power) : (s.modPower f).fabric = s.fabric := rfl
@[simp] theorem modPower_ckpt (f : Power → Power) : (s.modPower f).ckpt = s.ckpt := rfl
@[simp] theorem modPower_sec (f : Power → Power) : (s.modPower f).sec = s.sec := rfl
@[simp] theorem modPower_mgmt (f : Power → Power) : (s.modPower f).mgmt = s.mgmt := rfl
@[simp] theorem modPower_resets (f : Power → Power) : (s.modPower f).resets = s.resets := rfl
@[simp] theorem modPower_bench (f : Power → Power) (x : Nat) : (s.modPower f).bench x = s.bench x := rfl
@[simp] theorem modPower_region (f : Power → Power) (x : Nat) : (s.modPower f).region x = s.region x := rfl
@[simp] theorem modPower_die (f : Power → Power) (x : Nat) : (s.modPower f).die x = s.die x := rfl
@[simp] theorem modPower_extent (f : Power → Power) (x y : Nat) : (s.modPower f).extent x y = s.extent x y := rfl
@[simp] theorem modPower_ctl (f : Power → Power) (x : Nat) : (s.modPower f).ctl x = s.ctl x := rfl
@[simp] theorem modPower_ns (f : Power → Power) (x : Nat) : (s.modPower f).ns x = s.ns x := rfl
@[simp] theorem modPower_prog (f : Power → Power) (x : Nat) : (s.modPower f).prog x = s.prog x := rfl
@[simp] theorem modPower_op (f : Power → Power) (x : Nat) : (s.modPower f).op x = s.op x := rfl
@[simp] theorem modPower_port (f : Power → Power) (x : Nat) : (s.modPower f).port x = s.port x := rfl
@[simp] theorem modPower_stack (f : Power → Power) (x : Nat) : (s.modPower f).stack x = s.stack x := rfl
@[simp] theorem modPower_blk (f : Power → Power) (x : Nat) : (s.modPower f).blk x = s.blk x := rfl
@[simp] theorem modPower_arr (f : Power → Power) (x y : Nat) : (s.modPower f).arr x y = s.arr x y := rfl
@[simp] theorem modPower_scan (f : Power → Power) (x : Nat) : (s.modPower f).scan x = s.scan x := rfl
@[simp] theorem modPower_now (f : Power → Power) : (s.modPower f).now = s.now := rfl
@[simp] theorem modPower_dieNow (f : Power → Power) (x : Nat) : (s.modPower f).dieNow x = s.dieNow x := rfl
@[simp] theorem modPower_lifeCycle (f : Power → Power) : (s.modPower f).lifeCycle = s.lifeCycle := rfl

/-! ## modClk -/

@[simp] theorem modClk_clk (f : Clock → Clock) : (s.modClk f).clk = f s.clk := rfl
@[simp] theorem modClk_pending (f : Clock → Clock) : (s.modClk f).pending = s.pending := rfl
@[simp] theorem modClk_mfg (f : Clock → Clock) : (s.modClk f).mfg = s.mfg := rfl
@[simp] theorem modClk_host (f : Clock → Clock) : (s.modClk f).host = s.host := rfl
@[simp] theorem modClk_benches (f : Clock → Clock) : (s.modClk f).benches = s.benches := rfl
@[simp] theorem modClk_regions (f : Clock → Clock) : (s.modClk f).regions = s.regions := rfl
@[simp] theorem modClk_ts (f : Clock → Clock) : (s.modClk f).ts = s.ts := rfl
@[simp] theorem modClk_flash (f : Clock → Clock) : (s.modClk f).flash = s.flash := rfl
@[simp] theorem modClk_scans (f : Clock → Clock) : (s.modClk f).scans = s.scans := rfl
@[simp] theorem modClk_fabric (f : Clock → Clock) : (s.modClk f).fabric = s.fabric := rfl
@[simp] theorem modClk_ckpt (f : Clock → Clock) : (s.modClk f).ckpt = s.ckpt := rfl
@[simp] theorem modClk_sec (f : Clock → Clock) : (s.modClk f).sec = s.sec := rfl
@[simp] theorem modClk_mgmt (f : Clock → Clock) : (s.modClk f).mgmt = s.mgmt := rfl
@[simp] theorem modClk_power (f : Clock → Clock) : (s.modClk f).power = s.power := rfl
@[simp] theorem modClk_resets (f : Clock → Clock) : (s.modClk f).resets = s.resets := rfl
@[simp] theorem modClk_bench (f : Clock → Clock) (x : Nat) : (s.modClk f).bench x = s.bench x := rfl
@[simp] theorem modClk_region (f : Clock → Clock) (x : Nat) : (s.modClk f).region x = s.region x := rfl
@[simp] theorem modClk_die (f : Clock → Clock) (x : Nat) : (s.modClk f).die x = s.die x := rfl
@[simp] theorem modClk_extent (f : Clock → Clock) (x y : Nat) : (s.modClk f).extent x y = s.extent x y := rfl
@[simp] theorem modClk_ctl (f : Clock → Clock) (x : Nat) : (s.modClk f).ctl x = s.ctl x := rfl
@[simp] theorem modClk_ns (f : Clock → Clock) (x : Nat) : (s.modClk f).ns x = s.ns x := rfl
@[simp] theorem modClk_prog (f : Clock → Clock) (x : Nat) : (s.modClk f).prog x = s.prog x := rfl
@[simp] theorem modClk_op (f : Clock → Clock) (x : Nat) : (s.modClk f).op x = s.op x := rfl
@[simp] theorem modClk_port (f : Clock → Clock) (x : Nat) : (s.modClk f).port x = s.port x := rfl
@[simp] theorem modClk_stack (f : Clock → Clock) (x : Nat) : (s.modClk f).stack x = s.stack x := rfl
@[simp] theorem modClk_blk (f : Clock → Clock) (x : Nat) : (s.modClk f).blk x = s.blk x := rfl
@[simp] theorem modClk_arr (f : Clock → Clock) (x y : Nat) : (s.modClk f).arr x y = s.arr x y := rfl
@[simp] theorem modClk_scan (f : Clock → Clock) (x : Nat) : (s.modClk f).scan x = s.scan x := rfl
@[simp] theorem modClk_lifeCycle (f : Clock → Clock) : (s.modClk f).lifeCycle = s.lifeCycle := rfl

/-! ## modScans -/

@[simp] theorem modScans_scans (f : List Scan → List Scan) : (s.modScans f).scans = f s.scans := rfl
@[simp] theorem modScans_pending (f : List Scan → List Scan) : (s.modScans f).pending = s.pending := rfl
@[simp] theorem modScans_mfg (f : List Scan → List Scan) : (s.modScans f).mfg = s.mfg := rfl
@[simp] theorem modScans_clk (f : List Scan → List Scan) : (s.modScans f).clk = s.clk := rfl
@[simp] theorem modScans_host (f : List Scan → List Scan) : (s.modScans f).host = s.host := rfl
@[simp] theorem modScans_benches (f : List Scan → List Scan) : (s.modScans f).benches = s.benches := rfl
@[simp] theorem modScans_regions (f : List Scan → List Scan) : (s.modScans f).regions = s.regions := rfl
@[simp] theorem modScans_ts (f : List Scan → List Scan) : (s.modScans f).ts = s.ts := rfl
@[simp] theorem modScans_flash (f : List Scan → List Scan) : (s.modScans f).flash = s.flash := rfl
@[simp] theorem modScans_fabric (f : List Scan → List Scan) : (s.modScans f).fabric = s.fabric := rfl
@[simp] theorem modScans_ckpt (f : List Scan → List Scan) : (s.modScans f).ckpt = s.ckpt := rfl
@[simp] theorem modScans_sec (f : List Scan → List Scan) : (s.modScans f).sec = s.sec := rfl
@[simp] theorem modScans_mgmt (f : List Scan → List Scan) : (s.modScans f).mgmt = s.mgmt := rfl
@[simp] theorem modScans_power (f : List Scan → List Scan) : (s.modScans f).power = s.power := rfl
@[simp] theorem modScans_resets (f : List Scan → List Scan) : (s.modScans f).resets = s.resets := rfl
@[simp] theorem modScans_bench (f : List Scan → List Scan) (x : Nat) : (s.modScans f).bench x = s.bench x := rfl
@[simp] theorem modScans_region (f : List Scan → List Scan) (x : Nat) : (s.modScans f).region x = s.region x := rfl
@[simp] theorem modScans_die (f : List Scan → List Scan) (x : Nat) : (s.modScans f).die x = s.die x := rfl
@[simp] theorem modScans_extent (f : List Scan → List Scan) (x y : Nat) : (s.modScans f).extent x y = s.extent x y := rfl
@[simp] theorem modScans_ctl (f : List Scan → List Scan) (x : Nat) : (s.modScans f).ctl x = s.ctl x := rfl
@[simp] theorem modScans_ns (f : List Scan → List Scan) (x : Nat) : (s.modScans f).ns x = s.ns x := rfl
@[simp] theorem modScans_prog (f : List Scan → List Scan) (x : Nat) : (s.modScans f).prog x = s.prog x := rfl
@[simp] theorem modScans_op (f : List Scan → List Scan) (x : Nat) : (s.modScans f).op x = s.op x := rfl
@[simp] theorem modScans_port (f : List Scan → List Scan) (x : Nat) : (s.modScans f).port x = s.port x := rfl
@[simp] theorem modScans_stack (f : List Scan → List Scan) (x : Nat) : (s.modScans f).stack x = s.stack x := rfl
@[simp] theorem modScans_blk (f : List Scan → List Scan) (x : Nat) : (s.modScans f).blk x = s.blk x := rfl
@[simp] theorem modScans_arr (f : List Scan → List Scan) (x y : Nat) : (s.modScans f).arr x y = s.arr x y := rfl
@[simp] theorem modScans_now (f : List Scan → List Scan) : (s.modScans f).now = s.now := rfl
@[simp] theorem modScans_dieNow (f : List Scan → List Scan) (x : Nat) : (s.modScans f).dieNow x = s.dieNow x := rfl
@[simp] theorem modScans_lifeCycle (f : List Scan → List Scan) : (s.modScans f).lifeCycle = s.lifeCycle := rfl

/-! ## modBench -/

@[simp] theorem modBench_pending (b : Nat) (f : Bench → Bench) : (s.modBench b f).pending = s.pending := rfl
@[simp] theorem modBench_mfg (b : Nat) (f : Bench → Bench) : (s.modBench b f).mfg = s.mfg := rfl
@[simp] theorem modBench_clk (b : Nat) (f : Bench → Bench) : (s.modBench b f).clk = s.clk := rfl
@[simp] theorem modBench_host (b : Nat) (f : Bench → Bench) : (s.modBench b f).host = s.host := rfl
@[simp] theorem modBench_regions (b : Nat) (f : Bench → Bench) : (s.modBench b f).regions = s.regions := rfl
@[simp] theorem modBench_ts (b : Nat) (f : Bench → Bench) : (s.modBench b f).ts = s.ts := rfl
@[simp] theorem modBench_flash (b : Nat) (f : Bench → Bench) : (s.modBench b f).flash = s.flash := rfl
@[simp] theorem modBench_scans (b : Nat) (f : Bench → Bench) : (s.modBench b f).scans = s.scans := rfl
@[simp] theorem modBench_fabric (b : Nat) (f : Bench → Bench) : (s.modBench b f).fabric = s.fabric := rfl
@[simp] theorem modBench_ckpt (b : Nat) (f : Bench → Bench) : (s.modBench b f).ckpt = s.ckpt := rfl
@[simp] theorem modBench_sec (b : Nat) (f : Bench → Bench) : (s.modBench b f).sec = s.sec := rfl
@[simp] theorem modBench_mgmt (b : Nat) (f : Bench → Bench) : (s.modBench b f).mgmt = s.mgmt := rfl
@[simp] theorem modBench_power (b : Nat) (f : Bench → Bench) : (s.modBench b f).power = s.power := rfl
@[simp] theorem modBench_resets (b : Nat) (f : Bench → Bench) : (s.modBench b f).resets = s.resets := rfl
@[simp] theorem modBench_region (b : Nat) (f : Bench → Bench) (x : Nat) : (s.modBench b f).region x = s.region x := rfl
@[simp] theorem modBench_die (b : Nat) (f : Bench → Bench) (x : Nat) : (s.modBench b f).die x = s.die x := rfl
@[simp] theorem modBench_extent (b : Nat) (f : Bench → Bench) (x y : Nat) : (s.modBench b f).extent x y = s.extent x y := rfl
@[simp] theorem modBench_ctl (b : Nat) (f : Bench → Bench) (x : Nat) : (s.modBench b f).ctl x = s.ctl x := rfl
@[simp] theorem modBench_ns (b : Nat) (f : Bench → Bench) (x : Nat) : (s.modBench b f).ns x = s.ns x := rfl
@[simp] theorem modBench_prog (b : Nat) (f : Bench → Bench) (x : Nat) : (s.modBench b f).prog x = s.prog x := rfl
@[simp] theorem modBench_op (b : Nat) (f : Bench → Bench) (x : Nat) : (s.modBench b f).op x = s.op x := rfl
@[simp] theorem modBench_port (b : Nat) (f : Bench → Bench) (x : Nat) : (s.modBench b f).port x = s.port x := rfl
@[simp] theorem modBench_stack (b : Nat) (f : Bench → Bench) (x : Nat) : (s.modBench b f).stack x = s.stack x := rfl
@[simp] theorem modBench_blk (b : Nat) (f : Bench → Bench) (x : Nat) : (s.modBench b f).blk x = s.blk x := rfl
@[simp] theorem modBench_scan (b : Nat) (f : Bench → Bench) (x : Nat) : (s.modBench b f).scan x = s.scan x := rfl
@[simp] theorem modBench_now (b : Nat) (f : Bench → Bench) : (s.modBench b f).now = s.now := rfl
@[simp] theorem modBench_dieNow (b : Nat) (f : Bench → Bench) (x : Nat) : (s.modBench b f).dieNow x = s.dieNow x := rfl
@[simp] theorem modBench_lifeCycle (b : Nat) (f : Bench → Bench) : (s.modBench b f).lifeCycle = s.lifeCycle := rfl

/-! ## modRegion -/

@[simp] theorem modRegion_pending (r : Nat) (f : Region → Region) : (s.modRegion r f).pending = s.pending := rfl
@[simp] theorem modRegion_mfg (r : Nat) (f : Region → Region) : (s.modRegion r f).mfg = s.mfg := rfl
@[simp] theorem modRegion_clk (r : Nat) (f : Region → Region) : (s.modRegion r f).clk = s.clk := rfl
@[simp] theorem modRegion_host (r : Nat) (f : Region → Region) : (s.modRegion r f).host = s.host := rfl
@[simp] theorem modRegion_benches (r : Nat) (f : Region → Region) : (s.modRegion r f).benches = s.benches := rfl
@[simp] theorem modRegion_ts (r : Nat) (f : Region → Region) : (s.modRegion r f).ts = s.ts := rfl
@[simp] theorem modRegion_flash (r : Nat) (f : Region → Region) : (s.modRegion r f).flash = s.flash := rfl
@[simp] theorem modRegion_scans (r : Nat) (f : Region → Region) : (s.modRegion r f).scans = s.scans := rfl
@[simp] theorem modRegion_fabric (r : Nat) (f : Region → Region) : (s.modRegion r f).fabric = s.fabric := rfl
@[simp] theorem modRegion_ckpt (r : Nat) (f : Region → Region) : (s.modRegion r f).ckpt = s.ckpt := rfl
@[simp] theorem modRegion_sec (r : Nat) (f : Region → Region) : (s.modRegion r f).sec = s.sec := rfl
@[simp] theorem modRegion_mgmt (r : Nat) (f : Region → Region) : (s.modRegion r f).mgmt = s.mgmt := rfl
@[simp] theorem modRegion_power (r : Nat) (f : Region → Region) : (s.modRegion r f).power = s.power := rfl
@[simp] theorem modRegion_resets (r : Nat) (f : Region → Region) : (s.modRegion r f).resets = s.resets := rfl
@[simp] theorem modRegion_bench (r : Nat) (f : Region → Region) (x : Nat) : (s.modRegion r f).bench x = s.bench x := rfl
@[simp] theorem modRegion_die (r : Nat) (f : Region → Region) (x : Nat) : (s.modRegion r f).die x = s.die x := rfl
@[simp] theorem modRegion_extent (r : Nat) (f : Region → Region) (x y : Nat) : (s.modRegion r f).extent x y = s.extent x y := rfl
@[simp] theorem modRegion_ctl (r : Nat) (f : Region → Region) (x : Nat) : (s.modRegion r f).ctl x = s.ctl x := rfl
@[simp] theorem modRegion_ns (r : Nat) (f : Region → Region) (x : Nat) : (s.modRegion r f).ns x = s.ns x := rfl
@[simp] theorem modRegion_prog (r : Nat) (f : Region → Region) (x : Nat) : (s.modRegion r f).prog x = s.prog x := rfl
@[simp] theorem modRegion_op (r : Nat) (f : Region → Region) (x : Nat) : (s.modRegion r f).op x = s.op x := rfl
@[simp] theorem modRegion_port (r : Nat) (f : Region → Region) (x : Nat) : (s.modRegion r f).port x = s.port x := rfl
@[simp] theorem modRegion_stack (r : Nat) (f : Region → Region) (x : Nat) : (s.modRegion r f).stack x = s.stack x := rfl
@[simp] theorem modRegion_blk (r : Nat) (f : Region → Region) (x : Nat) : (s.modRegion r f).blk x = s.blk x := rfl
@[simp] theorem modRegion_arr (r : Nat) (f : Region → Region) (x y : Nat) : (s.modRegion r f).arr x y = s.arr x y := rfl
@[simp] theorem modRegion_scan (r : Nat) (f : Region → Region) (x : Nat) : (s.modRegion r f).scan x = s.scan x := rfl
@[simp] theorem modRegion_now (r : Nat) (f : Region → Region) : (s.modRegion r f).now = s.now := rfl
@[simp] theorem modRegion_dieNow (r : Nat) (f : Region → Region) (x : Nat) : (s.modRegion r f).dieNow x = s.dieNow x := rfl
@[simp] theorem modRegion_lifeCycle (r : Nat) (f : Region → Region) : (s.modRegion r f).lifeCycle = s.lifeCycle := rfl

/-! ## modHaul -/

@[simp] theorem modHaul_pending (r : Nat) (f : Haul → Haul) : (s.modHaul r f).pending = s.pending := rfl
@[simp] theorem modHaul_mfg (r : Nat) (f : Haul → Haul) : (s.modHaul r f).mfg = s.mfg := rfl
@[simp] theorem modHaul_clk (r : Nat) (f : Haul → Haul) : (s.modHaul r f).clk = s.clk := rfl
@[simp] theorem modHaul_host (r : Nat) (f : Haul → Haul) : (s.modHaul r f).host = s.host := rfl
@[simp] theorem modHaul_benches (r : Nat) (f : Haul → Haul) : (s.modHaul r f).benches = s.benches := rfl
@[simp] theorem modHaul_ts (r : Nat) (f : Haul → Haul) : (s.modHaul r f).ts = s.ts := rfl
@[simp] theorem modHaul_flash (r : Nat) (f : Haul → Haul) : (s.modHaul r f).flash = s.flash := rfl
@[simp] theorem modHaul_scans (r : Nat) (f : Haul → Haul) : (s.modHaul r f).scans = s.scans := rfl
@[simp] theorem modHaul_fabric (r : Nat) (f : Haul → Haul) : (s.modHaul r f).fabric = s.fabric := rfl
@[simp] theorem modHaul_ckpt (r : Nat) (f : Haul → Haul) : (s.modHaul r f).ckpt = s.ckpt := rfl
@[simp] theorem modHaul_sec (r : Nat) (f : Haul → Haul) : (s.modHaul r f).sec = s.sec := rfl
@[simp] theorem modHaul_mgmt (r : Nat) (f : Haul → Haul) : (s.modHaul r f).mgmt = s.mgmt := rfl
@[simp] theorem modHaul_power (r : Nat) (f : Haul → Haul) : (s.modHaul r f).power = s.power := rfl
@[simp] theorem modHaul_resets (r : Nat) (f : Haul → Haul) : (s.modHaul r f).resets = s.resets := rfl
@[simp] theorem modHaul_bench (r : Nat) (f : Haul → Haul) (x : Nat) : (s.modHaul r f).bench x = s.bench x := rfl
@[simp] theorem modHaul_die (r : Nat) (f : Haul → Haul) (x : Nat) : (s.modHaul r f).die x = s.die x := rfl
@[simp] theorem modHaul_extent (r : Nat) (f : Haul → Haul) (x y : Nat) : (s.modHaul r f).extent x y = s.extent x y := rfl
@[simp] theorem modHaul_ctl (r : Nat) (f : Haul → Haul) (x : Nat) : (s.modHaul r f).ctl x = s.ctl x := rfl
@[simp] theorem modHaul_ns (r : Nat) (f : Haul → Haul) (x : Nat) : (s.modHaul r f).ns x = s.ns x := rfl
@[simp] theorem modHaul_prog (r : Nat) (f : Haul → Haul) (x : Nat) : (s.modHaul r f).prog x = s.prog x := rfl
@[simp] theorem modHaul_op (r : Nat) (f : Haul → Haul) (x : Nat) : (s.modHaul r f).op x = s.op x := rfl
@[simp] theorem modHaul_port (r : Nat) (f : Haul → Haul) (x : Nat) : (s.modHaul r f).port x = s.port x := rfl
@[simp] theorem modHaul_stack (r : Nat) (f : Haul → Haul) (x : Nat) : (s.modHaul r f).stack x = s.stack x := rfl
@[simp] theorem modHaul_blk (r : Nat) (f : Haul → Haul) (x : Nat) : (s.modHaul r f).blk x = s.blk x := rfl
@[simp] theorem modHaul_arr (r : Nat) (f : Haul → Haul) (x y : Nat) : (s.modHaul r f).arr x y = s.arr x y := rfl
@[simp] theorem modHaul_scan (r : Nat) (f : Haul → Haul) (x : Nat) : (s.modHaul r f).scan x = s.scan x := rfl
@[simp] theorem modHaul_now (r : Nat) (f : Haul → Haul) : (s.modHaul r f).now = s.now := rfl
@[simp] theorem modHaul_dieNow (r : Nat) (f : Haul → Haul) (x : Nat) : (s.modHaul r f).dieNow x = s.dieNow x := rfl
@[simp] theorem modHaul_lifeCycle (r : Nat) (f : Haul → Haul) : (s.modHaul r f).lifeCycle = s.lifeCycle := rfl

/-! ## modDie -/

@[simp] theorem modDie_pending (d : Nat) (f : Die → Die) : (s.modDie d f).pending = s.pending := rfl
@[simp] theorem modDie_mfg (d : Nat) (f : Die → Die) : (s.modDie d f).mfg = s.mfg := rfl
@[simp] theorem modDie_clk (d : Nat) (f : Die → Die) : (s.modDie d f).clk = s.clk := rfl
@[simp] theorem modDie_host (d : Nat) (f : Die → Die) : (s.modDie d f).host = s.host := rfl
@[simp] theorem modDie_benches (d : Nat) (f : Die → Die) : (s.modDie d f).benches = s.benches := rfl
@[simp] theorem modDie_regions (d : Nat) (f : Die → Die) : (s.modDie d f).regions = s.regions := rfl
@[simp] theorem modDie_flash (d : Nat) (f : Die → Die) : (s.modDie d f).flash = s.flash := rfl
@[simp] theorem modDie_scans (d : Nat) (f : Die → Die) : (s.modDie d f).scans = s.scans := rfl
@[simp] theorem modDie_fabric (d : Nat) (f : Die → Die) : (s.modDie d f).fabric = s.fabric := rfl
@[simp] theorem modDie_ckpt (d : Nat) (f : Die → Die) : (s.modDie d f).ckpt = s.ckpt := rfl
@[simp] theorem modDie_sec (d : Nat) (f : Die → Die) : (s.modDie d f).sec = s.sec := rfl
@[simp] theorem modDie_mgmt (d : Nat) (f : Die → Die) : (s.modDie d f).mgmt = s.mgmt := rfl
@[simp] theorem modDie_power (d : Nat) (f : Die → Die) : (s.modDie d f).power = s.power := rfl
@[simp] theorem modDie_resets (d : Nat) (f : Die → Die) : (s.modDie d f).resets = s.resets := rfl
@[simp] theorem modDie_bench (d : Nat) (f : Die → Die) (x : Nat) : (s.modDie d f).bench x = s.bench x := rfl
@[simp] theorem modDie_region (d : Nat) (f : Die → Die) (x : Nat) : (s.modDie d f).region x = s.region x := rfl
@[simp] theorem modDie_ctl (d : Nat) (f : Die → Die) (x : Nat) : (s.modDie d f).ctl x = s.ctl x := rfl
@[simp] theorem modDie_ns (d : Nat) (f : Die → Die) (x : Nat) : (s.modDie d f).ns x = s.ns x := rfl
@[simp] theorem modDie_prog (d : Nat) (f : Die → Die) (x : Nat) : (s.modDie d f).prog x = s.prog x := rfl
@[simp] theorem modDie_op (d : Nat) (f : Die → Die) (x : Nat) : (s.modDie d f).op x = s.op x := rfl
@[simp] theorem modDie_port (d : Nat) (f : Die → Die) (x : Nat) : (s.modDie d f).port x = s.port x := rfl
@[simp] theorem modDie_stack (d : Nat) (f : Die → Die) (x : Nat) : (s.modDie d f).stack x = s.stack x := rfl
@[simp] theorem modDie_blk (d : Nat) (f : Die → Die) (x : Nat) : (s.modDie d f).blk x = s.blk x := rfl
@[simp] theorem modDie_arr (d : Nat) (f : Die → Die) (x y : Nat) : (s.modDie d f).arr x y = s.arr x y := rfl
@[simp] theorem modDie_scan (d : Nat) (f : Die → Die) (x : Nat) : (s.modDie d f).scan x = s.scan x := rfl
@[simp] theorem modDie_now (d : Nat) (f : Die → Die) : (s.modDie d f).now = s.now := rfl
@[simp] theorem modDie_dieNow (d : Nat) (f : Die → Die) (x : Nat) : (s.modDie d f).dieNow x = s.dieNow x := rfl
@[simp] theorem modDie_lifeCycle (d : Nat) (f : Die → Die) : (s.modDie d f).lifeCycle = s.lifeCycle := rfl

/-! ## modExtent -/

@[simp] theorem modExtent_pending (d j : Nat) (f : Extent → Extent) : (s.modExtent d j f).pending = s.pending := rfl
@[simp] theorem modExtent_mfg (d j : Nat) (f : Extent → Extent) : (s.modExtent d j f).mfg = s.mfg := rfl
@[simp] theorem modExtent_clk (d j : Nat) (f : Extent → Extent) : (s.modExtent d j f).clk = s.clk := rfl
@[simp] theorem modExtent_host (d j : Nat) (f : Extent → Extent) : (s.modExtent d j f).host = s.host := rfl
@[simp] theorem modExtent_benches (d j : Nat) (f : Extent → Extent) : (s.modExtent d j f).benches = s.benches := rfl
@[simp] theorem modExtent_regions (d j : Nat) (f : Extent → Extent) : (s.modExtent d j f).regions = s.regions := rfl
@[simp] theorem modExtent_flash (d j : Nat) (f : Extent → Extent) : (s.modExtent d j f).flash = s.flash := rfl
@[simp] theorem modExtent_scans (d j : Nat) (f : Extent → Extent) : (s.modExtent d j f).scans = s.scans := rfl
@[simp] theorem modExtent_fabric (d j : Nat) (f : Extent → Extent) : (s.modExtent d j f).fabric = s.fabric := rfl
@[simp] theorem modExtent_ckpt (d j : Nat) (f : Extent → Extent) : (s.modExtent d j f).ckpt = s.ckpt := rfl
@[simp] theorem modExtent_sec (d j : Nat) (f : Extent → Extent) : (s.modExtent d j f).sec = s.sec := rfl
@[simp] theorem modExtent_mgmt (d j : Nat) (f : Extent → Extent) : (s.modExtent d j f).mgmt = s.mgmt := rfl
@[simp] theorem modExtent_power (d j : Nat) (f : Extent → Extent) : (s.modExtent d j f).power = s.power := rfl
@[simp] theorem modExtent_resets (d j : Nat) (f : Extent → Extent) : (s.modExtent d j f).resets = s.resets := rfl
@[simp] theorem modExtent_bench (d j : Nat) (f : Extent → Extent) (x : Nat) : (s.modExtent d j f).bench x = s.bench x := rfl
@[simp] theorem modExtent_region (d j : Nat) (f : Extent → Extent) (x : Nat) : (s.modExtent d j f).region x = s.region x := rfl
@[simp] theorem modExtent_ctl (d j : Nat) (f : Extent → Extent) (x : Nat) : (s.modExtent d j f).ctl x = s.ctl x := rfl
@[simp] theorem modExtent_ns (d j : Nat) (f : Extent → Extent) (x : Nat) : (s.modExtent d j f).ns x = s.ns x := rfl
@[simp] theorem modExtent_prog (d j : Nat) (f : Extent → Extent) (x : Nat) : (s.modExtent d j f).prog x = s.prog x := rfl
@[simp] theorem modExtent_op (d j : Nat) (f : Extent → Extent) (x : Nat) : (s.modExtent d j f).op x = s.op x := rfl
@[simp] theorem modExtent_port (d j : Nat) (f : Extent → Extent) (x : Nat) : (s.modExtent d j f).port x = s.port x := rfl
@[simp] theorem modExtent_stack (d j : Nat) (f : Extent → Extent) (x : Nat) : (s.modExtent d j f).stack x = s.stack x := rfl
@[simp] theorem modExtent_blk (d j : Nat) (f : Extent → Extent) (x : Nat) : (s.modExtent d j f).blk x = s.blk x := rfl
@[simp] theorem modExtent_arr (d j : Nat) (f : Extent → Extent) (x y : Nat) : (s.modExtent d j f).arr x y = s.arr x y := rfl
@[simp] theorem modExtent_scan (d j : Nat) (f : Extent → Extent) (x : Nat) : (s.modExtent d j f).scan x = s.scan x := rfl
@[simp] theorem modExtent_now (d j : Nat) (f : Extent → Extent) : (s.modExtent d j f).now = s.now := rfl
@[simp] theorem modExtent_dieNow (d j : Nat) (f : Extent → Extent) (x : Nat) : (s.modExtent d j f).dieNow x = s.dieNow x := rfl
@[simp] theorem modExtent_lifeCycle (d j : Nat) (f : Extent → Extent) : (s.modExtent d j f).lifeCycle = s.lifeCycle := rfl

/-! ## modCtl -/

@[simp] theorem modCtl_pending (n : Nat) (f : Controller → Controller) : (s.modCtl n f).pending = s.pending := rfl
@[simp] theorem modCtl_mfg (n : Nat) (f : Controller → Controller) : (s.modCtl n f).mfg = s.mfg := rfl
@[simp] theorem modCtl_clk (n : Nat) (f : Controller → Controller) : (s.modCtl n f).clk = s.clk := rfl
@[simp] theorem modCtl_benches (n : Nat) (f : Controller → Controller) : (s.modCtl n f).benches = s.benches := rfl
@[simp] theorem modCtl_regions (n : Nat) (f : Controller → Controller) : (s.modCtl n f).regions = s.regions := rfl
@[simp] theorem modCtl_ts (n : Nat) (f : Controller → Controller) : (s.modCtl n f).ts = s.ts := rfl
@[simp] theorem modCtl_flash (n : Nat) (f : Controller → Controller) : (s.modCtl n f).flash = s.flash := rfl
@[simp] theorem modCtl_scans (n : Nat) (f : Controller → Controller) : (s.modCtl n f).scans = s.scans := rfl
@[simp] theorem modCtl_fabric (n : Nat) (f : Controller → Controller) : (s.modCtl n f).fabric = s.fabric := rfl
@[simp] theorem modCtl_ckpt (n : Nat) (f : Controller → Controller) : (s.modCtl n f).ckpt = s.ckpt := rfl
@[simp] theorem modCtl_sec (n : Nat) (f : Controller → Controller) : (s.modCtl n f).sec = s.sec := rfl
@[simp] theorem modCtl_mgmt (n : Nat) (f : Controller → Controller) : (s.modCtl n f).mgmt = s.mgmt := rfl
@[simp] theorem modCtl_power (n : Nat) (f : Controller → Controller) : (s.modCtl n f).power = s.power := rfl
@[simp] theorem modCtl_resets (n : Nat) (f : Controller → Controller) : (s.modCtl n f).resets = s.resets := rfl
@[simp] theorem modCtl_bench (n : Nat) (f : Controller → Controller) (x : Nat) : (s.modCtl n f).bench x = s.bench x := rfl
@[simp] theorem modCtl_region (n : Nat) (f : Controller → Controller) (x : Nat) : (s.modCtl n f).region x = s.region x := rfl
@[simp] theorem modCtl_die (n : Nat) (f : Controller → Controller) (x : Nat) : (s.modCtl n f).die x = s.die x := rfl
@[simp] theorem modCtl_extent (n : Nat) (f : Controller → Controller) (x y : Nat) : (s.modCtl n f).extent x y = s.extent x y := rfl
@[simp] theorem modCtl_port (n : Nat) (f : Controller → Controller) (x : Nat) : (s.modCtl n f).port x = s.port x := rfl
@[simp] theorem modCtl_stack (n : Nat) (f : Controller → Controller) (x : Nat) : (s.modCtl n f).stack x = s.stack x := rfl
@[simp] theorem modCtl_blk (n : Nat) (f : Controller → Controller) (x : Nat) : (s.modCtl n f).blk x = s.blk x := rfl
@[simp] theorem modCtl_arr (n : Nat) (f : Controller → Controller) (x y : Nat) : (s.modCtl n f).arr x y = s.arr x y := rfl
@[simp] theorem modCtl_scan (n : Nat) (f : Controller → Controller) (x : Nat) : (s.modCtl n f).scan x = s.scan x := rfl
@[simp] theorem modCtl_now (n : Nat) (f : Controller → Controller) : (s.modCtl n f).now = s.now := rfl
@[simp] theorem modCtl_dieNow (n : Nat) (f : Controller → Controller) (x : Nat) : (s.modCtl n f).dieNow x = s.dieNow x := rfl
@[simp] theorem modCtl_lifeCycle (n : Nat) (f : Controller → Controller) : (s.modCtl n f).lifeCycle = s.lifeCycle := rfl

/-! ## modNs -/

@[simp] theorem modNs_pending (n : Nat) (f : Ns → Ns) : (s.modNs n f).pending = s.pending := rfl
@[simp] theorem modNs_mfg (n : Nat) (f : Ns → Ns) : (s.modNs n f).mfg = s.mfg := rfl
@[simp] theorem modNs_clk (n : Nat) (f : Ns → Ns) : (s.modNs n f).clk = s.clk := rfl
@[simp] theorem modNs_benches (n : Nat) (f : Ns → Ns) : (s.modNs n f).benches = s.benches := rfl
@[simp] theorem modNs_regions (n : Nat) (f : Ns → Ns) : (s.modNs n f).regions = s.regions := rfl
@[simp] theorem modNs_ts (n : Nat) (f : Ns → Ns) : (s.modNs n f).ts = s.ts := rfl
@[simp] theorem modNs_flash (n : Nat) (f : Ns → Ns) : (s.modNs n f).flash = s.flash := rfl
@[simp] theorem modNs_scans (n : Nat) (f : Ns → Ns) : (s.modNs n f).scans = s.scans := rfl
@[simp] theorem modNs_fabric (n : Nat) (f : Ns → Ns) : (s.modNs n f).fabric = s.fabric := rfl
@[simp] theorem modNs_ckpt (n : Nat) (f : Ns → Ns) : (s.modNs n f).ckpt = s.ckpt := rfl
@[simp] theorem modNs_sec (n : Nat) (f : Ns → Ns) : (s.modNs n f).sec = s.sec := rfl
@[simp] theorem modNs_mgmt (n : Nat) (f : Ns → Ns) : (s.modNs n f).mgmt = s.mgmt := rfl
@[simp] theorem modNs_power (n : Nat) (f : Ns → Ns) : (s.modNs n f).power = s.power := rfl
@[simp] theorem modNs_resets (n : Nat) (f : Ns → Ns) : (s.modNs n f).resets = s.resets := rfl
@[simp] theorem modNs_bench (n : Nat) (f : Ns → Ns) (x : Nat) : (s.modNs n f).bench x = s.bench x := rfl
@[simp] theorem modNs_region (n : Nat) (f : Ns → Ns) (x : Nat) : (s.modNs n f).region x = s.region x := rfl
@[simp] theorem modNs_die (n : Nat) (f : Ns → Ns) (x : Nat) : (s.modNs n f).die x = s.die x := rfl
@[simp] theorem modNs_extent (n : Nat) (f : Ns → Ns) (x y : Nat) : (s.modNs n f).extent x y = s.extent x y := rfl
@[simp] theorem modNs_port (n : Nat) (f : Ns → Ns) (x : Nat) : (s.modNs n f).port x = s.port x := rfl
@[simp] theorem modNs_stack (n : Nat) (f : Ns → Ns) (x : Nat) : (s.modNs n f).stack x = s.stack x := rfl
@[simp] theorem modNs_blk (n : Nat) (f : Ns → Ns) (x : Nat) : (s.modNs n f).blk x = s.blk x := rfl
@[simp] theorem modNs_arr (n : Nat) (f : Ns → Ns) (x y : Nat) : (s.modNs n f).arr x y = s.arr x y := rfl
@[simp] theorem modNs_scan (n : Nat) (f : Ns → Ns) (x : Nat) : (s.modNs n f).scan x = s.scan x := rfl
@[simp] theorem modNs_now (n : Nat) (f : Ns → Ns) : (s.modNs n f).now = s.now := rfl
@[simp] theorem modNs_dieNow (n : Nat) (f : Ns → Ns) (x : Nat) : (s.modNs n f).dieNow x = s.dieNow x := rfl
@[simp] theorem modNs_lifeCycle (n : Nat) (f : Ns → Ns) : (s.modNs n f).lifeCycle = s.lifeCycle := rfl

/-! ## modProg -/

@[simp] theorem modProg_pending (k : Nat) (f : Prog → Prog) : (s.modProg k f).pending = s.pending := rfl
@[simp] theorem modProg_mfg (k : Nat) (f : Prog → Prog) : (s.modProg k f).mfg = s.mfg := rfl
@[simp] theorem modProg_clk (k : Nat) (f : Prog → Prog) : (s.modProg k f).clk = s.clk := rfl
@[simp] theorem modProg_benches (k : Nat) (f : Prog → Prog) : (s.modProg k f).benches = s.benches := rfl
@[simp] theorem modProg_regions (k : Nat) (f : Prog → Prog) : (s.modProg k f).regions = s.regions := rfl
@[simp] theorem modProg_ts (k : Nat) (f : Prog → Prog) : (s.modProg k f).ts = s.ts := rfl
@[simp] theorem modProg_flash (k : Nat) (f : Prog → Prog) : (s.modProg k f).flash = s.flash := rfl
@[simp] theorem modProg_scans (k : Nat) (f : Prog → Prog) : (s.modProg k f).scans = s.scans := rfl
@[simp] theorem modProg_fabric (k : Nat) (f : Prog → Prog) : (s.modProg k f).fabric = s.fabric := rfl
@[simp] theorem modProg_ckpt (k : Nat) (f : Prog → Prog) : (s.modProg k f).ckpt = s.ckpt := rfl
@[simp] theorem modProg_sec (k : Nat) (f : Prog → Prog) : (s.modProg k f).sec = s.sec := rfl
@[simp] theorem modProg_mgmt (k : Nat) (f : Prog → Prog) : (s.modProg k f).mgmt = s.mgmt := rfl
@[simp] theorem modProg_power (k : Nat) (f : Prog → Prog) : (s.modProg k f).power = s.power := rfl
@[simp] theorem modProg_resets (k : Nat) (f : Prog → Prog) : (s.modProg k f).resets = s.resets := rfl
@[simp] theorem modProg_bench (k : Nat) (f : Prog → Prog) (x : Nat) : (s.modProg k f).bench x = s.bench x := rfl
@[simp] theorem modProg_region (k : Nat) (f : Prog → Prog) (x : Nat) : (s.modProg k f).region x = s.region x := rfl
@[simp] theorem modProg_die (k : Nat) (f : Prog → Prog) (x : Nat) : (s.modProg k f).die x = s.die x := rfl
@[simp] theorem modProg_extent (k : Nat) (f : Prog → Prog) (x y : Nat) : (s.modProg k f).extent x y = s.extent x y := rfl
@[simp] theorem modProg_port (k : Nat) (f : Prog → Prog) (x : Nat) : (s.modProg k f).port x = s.port x := rfl
@[simp] theorem modProg_stack (k : Nat) (f : Prog → Prog) (x : Nat) : (s.modProg k f).stack x = s.stack x := rfl
@[simp] theorem modProg_blk (k : Nat) (f : Prog → Prog) (x : Nat) : (s.modProg k f).blk x = s.blk x := rfl
@[simp] theorem modProg_arr (k : Nat) (f : Prog → Prog) (x y : Nat) : (s.modProg k f).arr x y = s.arr x y := rfl
@[simp] theorem modProg_scan (k : Nat) (f : Prog → Prog) (x : Nat) : (s.modProg k f).scan x = s.scan x := rfl
@[simp] theorem modProg_now (k : Nat) (f : Prog → Prog) : (s.modProg k f).now = s.now := rfl
@[simp] theorem modProg_dieNow (k : Nat) (f : Prog → Prog) (x : Nat) : (s.modProg k f).dieNow x = s.dieNow x := rfl
@[simp] theorem modProg_lifeCycle (k : Nat) (f : Prog → Prog) : (s.modProg k f).lifeCycle = s.lifeCycle := rfl

/-! ## modPort -/

@[simp] theorem modPort_pending (p : Nat) (f : Port → Port) : (s.modPort p f).pending = s.pending := rfl
@[simp] theorem modPort_mfg (p : Nat) (f : Port → Port) : (s.modPort p f).mfg = s.mfg := rfl
@[simp] theorem modPort_clk (p : Nat) (f : Port → Port) : (s.modPort p f).clk = s.clk := rfl
@[simp] theorem modPort_host (p : Nat) (f : Port → Port) : (s.modPort p f).host = s.host := rfl
@[simp] theorem modPort_benches (p : Nat) (f : Port → Port) : (s.modPort p f).benches = s.benches := rfl
@[simp] theorem modPort_regions (p : Nat) (f : Port → Port) : (s.modPort p f).regions = s.regions := rfl
@[simp] theorem modPort_ts (p : Nat) (f : Port → Port) : (s.modPort p f).ts = s.ts := rfl
@[simp] theorem modPort_flash (p : Nat) (f : Port → Port) : (s.modPort p f).flash = s.flash := rfl
@[simp] theorem modPort_scans (p : Nat) (f : Port → Port) : (s.modPort p f).scans = s.scans := rfl
@[simp] theorem modPort_ckpt (p : Nat) (f : Port → Port) : (s.modPort p f).ckpt = s.ckpt := rfl
@[simp] theorem modPort_sec (p : Nat) (f : Port → Port) : (s.modPort p f).sec = s.sec := rfl
@[simp] theorem modPort_mgmt (p : Nat) (f : Port → Port) : (s.modPort p f).mgmt = s.mgmt := rfl
@[simp] theorem modPort_power (p : Nat) (f : Port → Port) : (s.modPort p f).power = s.power := rfl
@[simp] theorem modPort_resets (p : Nat) (f : Port → Port) : (s.modPort p f).resets = s.resets := rfl
@[simp] theorem modPort_bench (p : Nat) (f : Port → Port) (x : Nat) : (s.modPort p f).bench x = s.bench x := rfl
@[simp] theorem modPort_region (p : Nat) (f : Port → Port) (x : Nat) : (s.modPort p f).region x = s.region x := rfl
@[simp] theorem modPort_die (p : Nat) (f : Port → Port) (x : Nat) : (s.modPort p f).die x = s.die x := rfl
@[simp] theorem modPort_extent (p : Nat) (f : Port → Port) (x y : Nat) : (s.modPort p f).extent x y = s.extent x y := rfl
@[simp] theorem modPort_ctl (p : Nat) (f : Port → Port) (x : Nat) : (s.modPort p f).ctl x = s.ctl x := rfl
@[simp] theorem modPort_ns (p : Nat) (f : Port → Port) (x : Nat) : (s.modPort p f).ns x = s.ns x := rfl
@[simp] theorem modPort_prog (p : Nat) (f : Port → Port) (x : Nat) : (s.modPort p f).prog x = s.prog x := rfl
@[simp] theorem modPort_op (p : Nat) (f : Port → Port) (x : Nat) : (s.modPort p f).op x = s.op x := rfl
@[simp] theorem modPort_stack (p : Nat) (f : Port → Port) (x : Nat) : (s.modPort p f).stack x = s.stack x := rfl
@[simp] theorem modPort_blk (p : Nat) (f : Port → Port) (x : Nat) : (s.modPort p f).blk x = s.blk x := rfl
@[simp] theorem modPort_arr (p : Nat) (f : Port → Port) (x y : Nat) : (s.modPort p f).arr x y = s.arr x y := rfl
@[simp] theorem modPort_scan (p : Nat) (f : Port → Port) (x : Nat) : (s.modPort p f).scan x = s.scan x := rfl
@[simp] theorem modPort_now (p : Nat) (f : Port → Port) : (s.modPort p f).now = s.now := rfl
@[simp] theorem modPort_dieNow (p : Nat) (f : Port → Port) (x : Nat) : (s.modPort p f).dieNow x = s.dieNow x := rfl
@[simp] theorem modPort_lifeCycle (p : Nat) (f : Port → Port) : (s.modPort p f).lifeCycle = s.lifeCycle := rfl

/-! ## modStack -/

@[simp] theorem modStack_pending (k : Nat) (f : Stack → Stack) : (s.modStack k f).pending = s.pending := rfl
@[simp] theorem modStack_mfg (k : Nat) (f : Stack → Stack) : (s.modStack k f).mfg = s.mfg := rfl
@[simp] theorem modStack_clk (k : Nat) (f : Stack → Stack) : (s.modStack k f).clk = s.clk := rfl
@[simp] theorem modStack_host (k : Nat) (f : Stack → Stack) : (s.modStack k f).host = s.host := rfl
@[simp] theorem modStack_benches (k : Nat) (f : Stack → Stack) : (s.modStack k f).benches = s.benches := rfl
@[simp] theorem modStack_regions (k : Nat) (f : Stack → Stack) : (s.modStack k f).regions = s.regions := rfl
@[simp] theorem modStack_ts (k : Nat) (f : Stack → Stack) : (s.modStack k f).ts = s.ts := rfl
@[simp] theorem modStack_scans (k : Nat) (f : Stack → Stack) : (s.modStack k f).scans = s.scans := rfl
@[simp] theorem modStack_fabric (k : Nat) (f : Stack → Stack) : (s.modStack k f).fabric = s.fabric := rfl
@[simp] theorem modStack_ckpt (k : Nat) (f : Stack → Stack) : (s.modStack k f).ckpt = s.ckpt := rfl
@[simp] theorem modStack_sec (k : Nat) (f : Stack → Stack) : (s.modStack k f).sec = s.sec := rfl
@[simp] theorem modStack_mgmt (k : Nat) (f : Stack → Stack) : (s.modStack k f).mgmt = s.mgmt := rfl
@[simp] theorem modStack_power (k : Nat) (f : Stack → Stack) : (s.modStack k f).power = s.power := rfl
@[simp] theorem modStack_resets (k : Nat) (f : Stack → Stack) : (s.modStack k f).resets = s.resets := rfl
@[simp] theorem modStack_bench (k : Nat) (f : Stack → Stack) (x : Nat) : (s.modStack k f).bench x = s.bench x := rfl
@[simp] theorem modStack_region (k : Nat) (f : Stack → Stack) (x : Nat) : (s.modStack k f).region x = s.region x := rfl
@[simp] theorem modStack_die (k : Nat) (f : Stack → Stack) (x : Nat) : (s.modStack k f).die x = s.die x := rfl
@[simp] theorem modStack_extent (k : Nat) (f : Stack → Stack) (x y : Nat) : (s.modStack k f).extent x y = s.extent x y := rfl
@[simp] theorem modStack_ctl (k : Nat) (f : Stack → Stack) (x : Nat) : (s.modStack k f).ctl x = s.ctl x := rfl
@[simp] theorem modStack_ns (k : Nat) (f : Stack → Stack) (x : Nat) : (s.modStack k f).ns x = s.ns x := rfl
@[simp] theorem modStack_prog (k : Nat) (f : Stack → Stack) (x : Nat) : (s.modStack k f).prog x = s.prog x := rfl
@[simp] theorem modStack_op (k : Nat) (f : Stack → Stack) (x : Nat) : (s.modStack k f).op x = s.op x := rfl
@[simp] theorem modStack_port (k : Nat) (f : Stack → Stack) (x : Nat) : (s.modStack k f).port x = s.port x := rfl
@[simp] theorem modStack_arr (k : Nat) (f : Stack → Stack) (x y : Nat) : (s.modStack k f).arr x y = s.arr x y := rfl
@[simp] theorem modStack_scan (k : Nat) (f : Stack → Stack) (x : Nat) : (s.modStack k f).scan x = s.scan x := rfl
@[simp] theorem modStack_now (k : Nat) (f : Stack → Stack) : (s.modStack k f).now = s.now := rfl
@[simp] theorem modStack_dieNow (k : Nat) (f : Stack → Stack) (x : Nat) : (s.modStack k f).dieNow x = s.dieNow x := rfl
@[simp] theorem modStack_lifeCycle (k : Nat) (f : Stack → Stack) : (s.modStack k f).lifeCycle = s.lifeCycle := rfl

/-! ## modArr -/

@[simp] theorem modArr_pending (b a : Nat) (f : Arr → Arr) : (s.modArr b a f).pending = s.pending := rfl
@[simp] theorem modArr_mfg (b a : Nat) (f : Arr → Arr) : (s.modArr b a f).mfg = s.mfg := rfl
@[simp] theorem modArr_clk (b a : Nat) (f : Arr → Arr) : (s.modArr b a f).clk = s.clk := rfl
@[simp] theorem modArr_host (b a : Nat) (f : Arr → Arr) : (s.modArr b a f).host = s.host := rfl
@[simp] theorem modArr_regions (b a : Nat) (f : Arr → Arr) : (s.modArr b a f).regions = s.regions := rfl
@[simp] theorem modArr_ts (b a : Nat) (f : Arr → Arr) : (s.modArr b a f).ts = s.ts := rfl
@[simp] theorem modArr_flash (b a : Nat) (f : Arr → Arr) : (s.modArr b a f).flash = s.flash := rfl
@[simp] theorem modArr_scans (b a : Nat) (f : Arr → Arr) : (s.modArr b a f).scans = s.scans := rfl
@[simp] theorem modArr_fabric (b a : Nat) (f : Arr → Arr) : (s.modArr b a f).fabric = s.fabric := rfl
@[simp] theorem modArr_ckpt (b a : Nat) (f : Arr → Arr) : (s.modArr b a f).ckpt = s.ckpt := rfl
@[simp] theorem modArr_sec (b a : Nat) (f : Arr → Arr) : (s.modArr b a f).sec = s.sec := rfl
@[simp] theorem modArr_mgmt (b a : Nat) (f : Arr → Arr) : (s.modArr b a f).mgmt = s.mgmt := rfl
@[simp] theorem modArr_power (b a : Nat) (f : Arr → Arr) : (s.modArr b a f).power = s.power := rfl
@[simp] theorem modArr_resets (b a : Nat) (f : Arr → Arr) : (s.modArr b a f).resets = s.resets := rfl
@[simp] theorem modArr_region (b a : Nat) (f : Arr → Arr) (x : Nat) : (s.modArr b a f).region x = s.region x := rfl
@[simp] theorem modArr_die (b a : Nat) (f : Arr → Arr) (x : Nat) : (s.modArr b a f).die x = s.die x := rfl
@[simp] theorem modArr_extent (b a : Nat) (f : Arr → Arr) (x y : Nat) : (s.modArr b a f).extent x y = s.extent x y := rfl
@[simp] theorem modArr_ctl (b a : Nat) (f : Arr → Arr) (x : Nat) : (s.modArr b a f).ctl x = s.ctl x := rfl
@[simp] theorem modArr_ns (b a : Nat) (f : Arr → Arr) (x : Nat) : (s.modArr b a f).ns x = s.ns x := rfl
@[simp] theorem modArr_prog (b a : Nat) (f : Arr → Arr) (x : Nat) : (s.modArr b a f).prog x = s.prog x := rfl
@[simp] theorem modArr_op (b a : Nat) (f : Arr → Arr) (x : Nat) : (s.modArr b a f).op x = s.op x := rfl
@[simp] theorem modArr_port (b a : Nat) (f : Arr → Arr) (x : Nat) : (s.modArr b a f).port x = s.port x := rfl
@[simp] theorem modArr_stack (b a : Nat) (f : Arr → Arr) (x : Nat) : (s.modArr b a f).stack x = s.stack x := rfl
@[simp] theorem modArr_blk (b a : Nat) (f : Arr → Arr) (x : Nat) : (s.modArr b a f).blk x = s.blk x := rfl
@[simp] theorem modArr_scan (b a : Nat) (f : Arr → Arr) (x : Nat) : (s.modArr b a f).scan x = s.scan x := rfl
@[simp] theorem modArr_now (b a : Nat) (f : Arr → Arr) : (s.modArr b a f).now = s.now := rfl
@[simp] theorem modArr_dieNow (b a : Nat) (f : Arr → Arr) (x : Nat) : (s.modArr b a f).dieNow x = s.dieNow x := rfl
@[simp] theorem modArr_lifeCycle (b a : Nat) (f : Arr → Arr) : (s.modArr b a f).lifeCycle = s.lifeCycle := rfl

/-! ## modSeq -/

@[simp] theorem modSeq_pending (b : Nat) (f : Sequencer → Sequencer) : (s.modSeq b f).pending = s.pending := rfl
@[simp] theorem modSeq_mfg (b : Nat) (f : Sequencer → Sequencer) : (s.modSeq b f).mfg = s.mfg := rfl
@[simp] theorem modSeq_clk (b : Nat) (f : Sequencer → Sequencer) : (s.modSeq b f).clk = s.clk := rfl
@[simp] theorem modSeq_host (b : Nat) (f : Sequencer → Sequencer) : (s.modSeq b f).host = s.host := rfl
@[simp] theorem modSeq_regions (b : Nat) (f : Sequencer → Sequencer) : (s.modSeq b f).regions = s.regions := rfl
@[simp] theorem modSeq_ts (b : Nat) (f : Sequencer → Sequencer) : (s.modSeq b f).ts = s.ts := rfl
@[simp] theorem modSeq_flash (b : Nat) (f : Sequencer → Sequencer) : (s.modSeq b f).flash = s.flash := rfl
@[simp] theorem modSeq_scans (b : Nat) (f : Sequencer → Sequencer) : (s.modSeq b f).scans = s.scans := rfl
@[simp] theorem modSeq_fabric (b : Nat) (f : Sequencer → Sequencer) : (s.modSeq b f).fabric = s.fabric := rfl
@[simp] theorem modSeq_ckpt (b : Nat) (f : Sequencer → Sequencer) : (s.modSeq b f).ckpt = s.ckpt := rfl
@[simp] theorem modSeq_sec (b : Nat) (f : Sequencer → Sequencer) : (s.modSeq b f).sec = s.sec := rfl
@[simp] theorem modSeq_mgmt (b : Nat) (f : Sequencer → Sequencer) : (s.modSeq b f).mgmt = s.mgmt := rfl
@[simp] theorem modSeq_power (b : Nat) (f : Sequencer → Sequencer) : (s.modSeq b f).power = s.power := rfl
@[simp] theorem modSeq_resets (b : Nat) (f : Sequencer → Sequencer) : (s.modSeq b f).resets = s.resets := rfl
@[simp] theorem modSeq_region (b : Nat) (f : Sequencer → Sequencer) (x : Nat) : (s.modSeq b f).region x = s.region x := rfl
@[simp] theorem modSeq_die (b : Nat) (f : Sequencer → Sequencer) (x : Nat) : (s.modSeq b f).die x = s.die x := rfl
@[simp] theorem modSeq_extent (b : Nat) (f : Sequencer → Sequencer) (x y : Nat) : (s.modSeq b f).extent x y = s.extent x y := rfl
@[simp] theorem modSeq_ctl (b : Nat) (f : Sequencer → Sequencer) (x : Nat) : (s.modSeq b f).ctl x = s.ctl x := rfl
@[simp] theorem modSeq_ns (b : Nat) (f : Sequencer → Sequencer) (x : Nat) : (s.modSeq b f).ns x = s.ns x := rfl
@[simp] theorem modSeq_prog (b : Nat) (f : Sequencer → Sequencer) (x : Nat) : (s.modSeq b f).prog x = s.prog x := rfl
@[simp] theorem modSeq_op (b : Nat) (f : Sequencer → Sequencer) (x : Nat) : (s.modSeq b f).op x = s.op x := rfl
@[simp] theorem modSeq_port (b : Nat) (f : Sequencer → Sequencer) (x : Nat) : (s.modSeq b f).port x = s.port x := rfl
@[simp] theorem modSeq_stack (b : Nat) (f : Sequencer → Sequencer) (x : Nat) : (s.modSeq b f).stack x = s.stack x := rfl
@[simp] theorem modSeq_blk (b : Nat) (f : Sequencer → Sequencer) (x : Nat) : (s.modSeq b f).blk x = s.blk x := rfl
@[simp] theorem modSeq_scan (b : Nat) (f : Sequencer → Sequencer) (x : Nat) : (s.modSeq b f).scan x = s.scan x := rfl
@[simp] theorem modSeq_now (b : Nat) (f : Sequencer → Sequencer) : (s.modSeq b f).now = s.now := rfl
@[simp] theorem modSeq_dieNow (b : Nat) (f : Sequencer → Sequencer) (x : Nat) : (s.modSeq b f).dieNow x = s.dieNow x := rfl
@[simp] theorem modSeq_lifeCycle (b : Nat) (f : Sequencer → Sequencer) : (s.modSeq b f).lifeCycle = s.lifeCycle := rfl

/-! ## modScan -/

@[simp] theorem modScan_pending (i : Nat) (f : Scan → Scan) : (s.modScan i f).pending = s.pending := rfl
@[simp] theorem modScan_mfg (i : Nat) (f : Scan → Scan) : (s.modScan i f).mfg = s.mfg := rfl
@[simp] theorem modScan_clk (i : Nat) (f : Scan → Scan) : (s.modScan i f).clk = s.clk := rfl
@[simp] theorem modScan_host (i : Nat) (f : Scan → Scan) : (s.modScan i f).host = s.host := rfl
@[simp] theorem modScan_benches (i : Nat) (f : Scan → Scan) : (s.modScan i f).benches = s.benches := rfl
@[simp] theorem modScan_regions (i : Nat) (f : Scan → Scan) : (s.modScan i f).regions = s.regions := rfl
@[simp] theorem modScan_ts (i : Nat) (f : Scan → Scan) : (s.modScan i f).ts = s.ts := rfl
@[simp] theorem modScan_flash (i : Nat) (f : Scan → Scan) : (s.modScan i f).flash = s.flash := rfl
@[simp] theorem modScan_fabric (i : Nat) (f : Scan → Scan) : (s.modScan i f).fabric = s.fabric := rfl
@[simp] theorem modScan_ckpt (i : Nat) (f : Scan → Scan) : (s.modScan i f).ckpt = s.ckpt := rfl
@[simp] theorem modScan_sec (i : Nat) (f : Scan → Scan) : (s.modScan i f).sec = s.sec := rfl
@[simp] theorem modScan_mgmt (i : Nat) (f : Scan → Scan) : (s.modScan i f).mgmt = s.mgmt := rfl
@[simp] theorem modScan_power (i : Nat) (f : Scan → Scan) : (s.modScan i f).power = s.power := rfl
@[simp] theorem modScan_resets (i : Nat) (f : Scan → Scan) : (s.modScan i f).resets = s.resets := rfl
@[simp] theorem modScan_bench (i : Nat) (f : Scan → Scan) (x : Nat) : (s.modScan i f).bench x = s.bench x := rfl
@[simp] theorem modScan_region (i : Nat) (f : Scan → Scan) (x : Nat) : (s.modScan i f).region x = s.region x := rfl
@[simp] theorem modScan_die (i : Nat) (f : Scan → Scan) (x : Nat) : (s.modScan i f).die x = s.die x := rfl
@[simp] theorem modScan_extent (i : Nat) (f : Scan → Scan) (x y : Nat) : (s.modScan i f).extent x y = s.extent x y := rfl
@[simp] theorem modScan_ctl (i : Nat) (f : Scan → Scan) (x : Nat) : (s.modScan i f).ctl x = s.ctl x := rfl
@[simp] theorem modScan_ns (i : Nat) (f : Scan → Scan) (x : Nat) : (s.modScan i f).ns x = s.ns x := rfl
@[simp] theorem modScan_prog (i : Nat) (f : Scan → Scan) (x : Nat) : (s.modScan i f).prog x = s.prog x := rfl
@[simp] theorem modScan_op (i : Nat) (f : Scan → Scan) (x : Nat) : (s.modScan i f).op x = s.op x := rfl
@[simp] theorem modScan_port (i : Nat) (f : Scan → Scan) (x : Nat) : (s.modScan i f).port x = s.port x := rfl
@[simp] theorem modScan_stack (i : Nat) (f : Scan → Scan) (x : Nat) : (s.modScan i f).stack x = s.stack x := rfl
@[simp] theorem modScan_blk (i : Nat) (f : Scan → Scan) (x : Nat) : (s.modScan i f).blk x = s.blk x := rfl
@[simp] theorem modScan_arr (i : Nat) (f : Scan → Scan) (x y : Nat) : (s.modScan i f).arr x y = s.arr x y := rfl
@[simp] theorem modScan_now (i : Nat) (f : Scan → Scan) : (s.modScan i f).now = s.now := rfl
@[simp] theorem modScan_dieNow (i : Nat) (f : Scan → Scan) (x : Nat) : (s.modScan i f).dieNow x = s.dieNow x := rfl
@[simp] theorem modScan_lifeCycle (i : Nat) (f : Scan → Scan) : (s.modScan i f).lifeCycle = s.lifeCycle := rfl

/-! ## modBlk -/

@[simp] theorem modBlk_pending (b : Nat) (f : Blk → Blk) : (s.modBlk b f).pending = s.pending := rfl
@[simp] theorem modBlk_mfg (b : Nat) (f : Blk → Blk) : (s.modBlk b f).mfg = s.mfg := rfl
@[simp] theorem modBlk_clk (b : Nat) (f : Blk → Blk) : (s.modBlk b f).clk = s.clk := rfl
@[simp] theorem modBlk_host (b : Nat) (f : Blk → Blk) : (s.modBlk b f).host = s.host := rfl
@[simp] theorem modBlk_benches (b : Nat) (f : Blk → Blk) : (s.modBlk b f).benches = s.benches := rfl
@[simp] theorem modBlk_regions (b : Nat) (f : Blk → Blk) : (s.modBlk b f).regions = s.regions := rfl
@[simp] theorem modBlk_ts (b : Nat) (f : Blk → Blk) : (s.modBlk b f).ts = s.ts := rfl
@[simp] theorem modBlk_scans (b : Nat) (f : Blk → Blk) : (s.modBlk b f).scans = s.scans := rfl
@[simp] theorem modBlk_fabric (b : Nat) (f : Blk → Blk) : (s.modBlk b f).fabric = s.fabric := rfl
@[simp] theorem modBlk_ckpt (b : Nat) (f : Blk → Blk) : (s.modBlk b f).ckpt = s.ckpt := rfl
@[simp] theorem modBlk_sec (b : Nat) (f : Blk → Blk) : (s.modBlk b f).sec = s.sec := rfl
@[simp] theorem modBlk_mgmt (b : Nat) (f : Blk → Blk) : (s.modBlk b f).mgmt = s.mgmt := rfl
@[simp] theorem modBlk_power (b : Nat) (f : Blk → Blk) : (s.modBlk b f).power = s.power := rfl
@[simp] theorem modBlk_resets (b : Nat) (f : Blk → Blk) : (s.modBlk b f).resets = s.resets := rfl
@[simp] theorem modBlk_bench (b : Nat) (f : Blk → Blk) (x : Nat) : (s.modBlk b f).bench x = s.bench x := rfl
@[simp] theorem modBlk_region (b : Nat) (f : Blk → Blk) (x : Nat) : (s.modBlk b f).region x = s.region x := rfl
@[simp] theorem modBlk_die (b : Nat) (f : Blk → Blk) (x : Nat) : (s.modBlk b f).die x = s.die x := rfl
@[simp] theorem modBlk_extent (b : Nat) (f : Blk → Blk) (x y : Nat) : (s.modBlk b f).extent x y = s.extent x y := rfl
@[simp] theorem modBlk_ctl (b : Nat) (f : Blk → Blk) (x : Nat) : (s.modBlk b f).ctl x = s.ctl x := rfl
@[simp] theorem modBlk_ns (b : Nat) (f : Blk → Blk) (x : Nat) : (s.modBlk b f).ns x = s.ns x := rfl
@[simp] theorem modBlk_prog (b : Nat) (f : Blk → Blk) (x : Nat) : (s.modBlk b f).prog x = s.prog x := rfl
@[simp] theorem modBlk_op (b : Nat) (f : Blk → Blk) (x : Nat) : (s.modBlk b f).op x = s.op x := rfl
@[simp] theorem modBlk_port (b : Nat) (f : Blk → Blk) (x : Nat) : (s.modBlk b f).port x = s.port x := rfl
@[simp] theorem modBlk_arr (b : Nat) (f : Blk → Blk) (x y : Nat) : (s.modBlk b f).arr x y = s.arr x y := rfl
@[simp] theorem modBlk_scan (b : Nat) (f : Blk → Blk) (x : Nat) : (s.modBlk b f).scan x = s.scan x := rfl
@[simp] theorem modBlk_now (b : Nat) (f : Blk → Blk) : (s.modBlk b f).now = s.now := rfl
@[simp] theorem modBlk_dieNow (b : Nat) (f : Blk → Blk) (x : Nat) : (s.modBlk b f).dieNow x = s.dieNow x := rfl
@[simp] theorem modBlk_lifeCycle (b : Nat) (f : Blk → Blk) : (s.modBlk b f).lifeCycle = s.lifeCycle := rfl

/-! ## dropOp -/

@[simp] theorem dropOp_pending (i : Nat) : (s.dropOp i).pending = s.pending := rfl
@[simp] theorem dropOp_mfg (i : Nat) : (s.dropOp i).mfg = s.mfg := rfl
@[simp] theorem dropOp_clk (i : Nat) : (s.dropOp i).clk = s.clk := rfl
@[simp] theorem dropOp_benches (i : Nat) : (s.dropOp i).benches = s.benches := rfl
@[simp] theorem dropOp_regions (i : Nat) : (s.dropOp i).regions = s.regions := rfl
@[simp] theorem dropOp_ts (i : Nat) : (s.dropOp i).ts = s.ts := rfl
@[simp] theorem dropOp_flash (i : Nat) : (s.dropOp i).flash = s.flash := rfl
@[simp] theorem dropOp_scans (i : Nat) : (s.dropOp i).scans = s.scans := rfl
@[simp] theorem dropOp_fabric (i : Nat) : (s.dropOp i).fabric = s.fabric := rfl
@[simp] theorem dropOp_ckpt (i : Nat) : (s.dropOp i).ckpt = s.ckpt := rfl
@[simp] theorem dropOp_sec (i : Nat) : (s.dropOp i).sec = s.sec := rfl
@[simp] theorem dropOp_mgmt (i : Nat) : (s.dropOp i).mgmt = s.mgmt := rfl
@[simp] theorem dropOp_power (i : Nat) : (s.dropOp i).power = s.power := rfl
@[simp] theorem dropOp_resets (i : Nat) : (s.dropOp i).resets = s.resets := rfl
@[simp] theorem dropOp_bench (i : Nat) (x : Nat) : (s.dropOp i).bench x = s.bench x := rfl
@[simp] theorem dropOp_region (i : Nat) (x : Nat) : (s.dropOp i).region x = s.region x := rfl
@[simp] theorem dropOp_die (i : Nat) (x : Nat) : (s.dropOp i).die x = s.die x := rfl
@[simp] theorem dropOp_extent (i : Nat) (x y : Nat) : (s.dropOp i).extent x y = s.extent x y := rfl
@[simp] theorem dropOp_port (i : Nat) (x : Nat) : (s.dropOp i).port x = s.port x := rfl
@[simp] theorem dropOp_stack (i : Nat) (x : Nat) : (s.dropOp i).stack x = s.stack x := rfl
@[simp] theorem dropOp_blk (i : Nat) (x : Nat) : (s.dropOp i).blk x = s.blk x := rfl
@[simp] theorem dropOp_arr (i : Nat) (x y : Nat) : (s.dropOp i).arr x y = s.arr x y := rfl
@[simp] theorem dropOp_scan (i : Nat) (x : Nat) : (s.dropOp i).scan x = s.scan x := rfl
@[simp] theorem dropOp_now (i : Nat) : (s.dropOp i).now = s.now := rfl
@[simp] theorem dropOp_dieNow (i : Nat) (x : Nat) : (s.dropOp i).dieNow x = s.dieNow x := rfl
@[simp] theorem dropOp_lifeCycle (i : Nat) : (s.dropOp i).lifeCycle = s.lifeCycle := rfl

/-! ## startOp -/

@[simp] theorem startOp_pending (c : Src) (k : OpKind) : (s.startOp c k).pending = s.pending := rfl
@[simp] theorem startOp_mfg (c : Src) (k : OpKind) : (s.startOp c k).mfg = s.mfg := rfl
@[simp] theorem startOp_clk (c : Src) (k : OpKind) : (s.startOp c k).clk = s.clk := rfl
@[simp] theorem startOp_benches (c : Src) (k : OpKind) : (s.startOp c k).benches = s.benches := rfl
@[simp] theorem startOp_regions (c : Src) (k : OpKind) : (s.startOp c k).regions = s.regions := rfl
@[simp] theorem startOp_ts (c : Src) (k : OpKind) : (s.startOp c k).ts = s.ts := rfl
@[simp] theorem startOp_flash (c : Src) (k : OpKind) : (s.startOp c k).flash = s.flash := rfl
@[simp] theorem startOp_scans (c : Src) (k : OpKind) : (s.startOp c k).scans = s.scans := rfl
@[simp] theorem startOp_fabric (c : Src) (k : OpKind) : (s.startOp c k).fabric = s.fabric := rfl
@[simp] theorem startOp_ckpt (c : Src) (k : OpKind) : (s.startOp c k).ckpt = s.ckpt := rfl
@[simp] theorem startOp_sec (c : Src) (k : OpKind) : (s.startOp c k).sec = s.sec := rfl
@[simp] theorem startOp_mgmt (c : Src) (k : OpKind) : (s.startOp c k).mgmt = s.mgmt := rfl
@[simp] theorem startOp_power (c : Src) (k : OpKind) : (s.startOp c k).power = s.power := rfl
@[simp] theorem startOp_resets (c : Src) (k : OpKind) : (s.startOp c k).resets = s.resets := rfl
@[simp] theorem startOp_bench (c : Src) (k : OpKind) (x : Nat) : (s.startOp c k).bench x = s.bench x := rfl
@[simp] theorem startOp_region (c : Src) (k : OpKind) (x : Nat) : (s.startOp c k).region x = s.region x := rfl
@[simp] theorem startOp_die (c : Src) (k : OpKind) (x : Nat) : (s.startOp c k).die x = s.die x := rfl
@[simp] theorem startOp_extent (c : Src) (k : OpKind) (x y : Nat) : (s.startOp c k).extent x y = s.extent x y := rfl
@[simp] theorem startOp_port (c : Src) (k : OpKind) (x : Nat) : (s.startOp c k).port x = s.port x := rfl
@[simp] theorem startOp_stack (c : Src) (k : OpKind) (x : Nat) : (s.startOp c k).stack x = s.stack x := rfl
@[simp] theorem startOp_blk (c : Src) (k : OpKind) (x : Nat) : (s.startOp c k).blk x = s.blk x := rfl
@[simp] theorem startOp_arr (c : Src) (k : OpKind) (x y : Nat) : (s.startOp c k).arr x y = s.arr x y := rfl
@[simp] theorem startOp_scan (c : Src) (k : OpKind) (x : Nat) : (s.startOp c k).scan x = s.scan x := rfl
@[simp] theorem startOp_now (c : Src) (k : OpKind) : (s.startOp c k).now = s.now := rfl
@[simp] theorem startOp_dieNow (c : Src) (k : OpKind) (x : Nat) : (s.startOp c k).dieNow x = s.dieNow x := rfl
@[simp] theorem startOp_lifeCycle (c : Src) (k : OpKind) : (s.startOp c k).lifeCycle = s.lifeCycle := rfl

/-! ## modOp -/

@[simp] theorem modOp_pending (i : Nat) (f : OpKind → OpKind) : (s.modOp i f).pending = s.pending := rfl
@[simp] theorem modOp_mfg (i : Nat) (f : OpKind → OpKind) : (s.modOp i f).mfg = s.mfg := rfl
@[simp] theorem modOp_clk (i : Nat) (f : OpKind → OpKind) : (s.modOp i f).clk = s.clk := rfl
@[simp] theorem modOp_benches (i : Nat) (f : OpKind → OpKind) : (s.modOp i f).benches = s.benches := rfl
@[simp] theorem modOp_regions (i : Nat) (f : OpKind → OpKind) : (s.modOp i f).regions = s.regions := rfl
@[simp] theorem modOp_ts (i : Nat) (f : OpKind → OpKind) : (s.modOp i f).ts = s.ts := rfl
@[simp] theorem modOp_flash (i : Nat) (f : OpKind → OpKind) : (s.modOp i f).flash = s.flash := rfl
@[simp] theorem modOp_scans (i : Nat) (f : OpKind → OpKind) : (s.modOp i f).scans = s.scans := rfl
@[simp] theorem modOp_fabric (i : Nat) (f : OpKind → OpKind) : (s.modOp i f).fabric = s.fabric := rfl
@[simp] theorem modOp_ckpt (i : Nat) (f : OpKind → OpKind) : (s.modOp i f).ckpt = s.ckpt := rfl
@[simp] theorem modOp_sec (i : Nat) (f : OpKind → OpKind) : (s.modOp i f).sec = s.sec := rfl
@[simp] theorem modOp_mgmt (i : Nat) (f : OpKind → OpKind) : (s.modOp i f).mgmt = s.mgmt := rfl
@[simp] theorem modOp_power (i : Nat) (f : OpKind → OpKind) : (s.modOp i f).power = s.power := rfl
@[simp] theorem modOp_resets (i : Nat) (f : OpKind → OpKind) : (s.modOp i f).resets = s.resets := rfl
@[simp] theorem modOp_bench (i : Nat) (f : OpKind → OpKind) (x : Nat) : (s.modOp i f).bench x = s.bench x := rfl
@[simp] theorem modOp_region (i : Nat) (f : OpKind → OpKind) (x : Nat) : (s.modOp i f).region x = s.region x := rfl
@[simp] theorem modOp_die (i : Nat) (f : OpKind → OpKind) (x : Nat) : (s.modOp i f).die x = s.die x := rfl
@[simp] theorem modOp_extent (i : Nat) (f : OpKind → OpKind) (x y : Nat) : (s.modOp i f).extent x y = s.extent x y := rfl
@[simp] theorem modOp_port (i : Nat) (f : OpKind → OpKind) (x : Nat) : (s.modOp i f).port x = s.port x := rfl
@[simp] theorem modOp_stack (i : Nat) (f : OpKind → OpKind) (x : Nat) : (s.modOp i f).stack x = s.stack x := rfl
@[simp] theorem modOp_blk (i : Nat) (f : OpKind → OpKind) (x : Nat) : (s.modOp i f).blk x = s.blk x := rfl
@[simp] theorem modOp_arr (i : Nat) (f : OpKind → OpKind) (x y : Nat) : (s.modOp i f).arr x y = s.arr x y := rfl
@[simp] theorem modOp_scan (i : Nat) (f : OpKind → OpKind) (x : Nat) : (s.modOp i f).scan x = s.scan x := rfl
@[simp] theorem modOp_now (i : Nat) (f : OpKind → OpKind) : (s.modOp i f).now = s.now := rfl
@[simp] theorem modOp_dieNow (i : Nat) (f : OpKind → OpKind) (x : Nat) : (s.modOp i f).dieNow x = s.dieNow x := rfl
@[simp] theorem modOp_lifeCycle (i : Nat) (f : OpKind → OpKind) : (s.modOp i f).lifeCycle = s.lifeCycle := rfl

/-! ## observe -/

@[simp] theorem observe_pending (a k : Nat) (v : Int) : (s.observe a k v).pending = s.pending := rfl
@[simp] theorem observe_mfg (a k : Nat) (v : Int) : (s.observe a k v).mfg = s.mfg := rfl
@[simp] theorem observe_clk (a k : Nat) (v : Int) : (s.observe a k v).clk = s.clk := rfl
@[simp] theorem observe_host (a k : Nat) (v : Int) : (s.observe a k v).host = s.host := rfl
@[simp] theorem observe_benches (a k : Nat) (v : Int) : (s.observe a k v).benches = s.benches := rfl
@[simp] theorem observe_regions (a k : Nat) (v : Int) : (s.observe a k v).regions = s.regions := rfl
@[simp] theorem observe_ts (a k : Nat) (v : Int) : (s.observe a k v).ts = s.ts := rfl
@[simp] theorem observe_flash (a k : Nat) (v : Int) : (s.observe a k v).flash = s.flash := rfl
@[simp] theorem observe_scans (a k : Nat) (v : Int) : (s.observe a k v).scans = s.scans := rfl
@[simp] theorem observe_fabric (a k : Nat) (v : Int) : (s.observe a k v).fabric = s.fabric := rfl
@[simp] theorem observe_ckpt (a k : Nat) (v : Int) : (s.observe a k v).ckpt = s.ckpt := rfl
@[simp] theorem observe_sec (a k : Nat) (v : Int) : (s.observe a k v).sec = s.sec := rfl
@[simp] theorem observe_power (a k : Nat) (v : Int) : (s.observe a k v).power = s.power := rfl
@[simp] theorem observe_resets (a k : Nat) (v : Int) : (s.observe a k v).resets = s.resets := rfl
@[simp] theorem observe_bench (a k : Nat) (v : Int) (x : Nat) : (s.observe a k v).bench x = s.bench x := rfl
@[simp] theorem observe_region (a k : Nat) (v : Int) (x : Nat) : (s.observe a k v).region x = s.region x := rfl
@[simp] theorem observe_die (a k : Nat) (v : Int) (x : Nat) : (s.observe a k v).die x = s.die x := rfl
@[simp] theorem observe_extent (a k : Nat) (v : Int) (x y : Nat) : (s.observe a k v).extent x y = s.extent x y := rfl
@[simp] theorem observe_ctl (a k : Nat) (v : Int) (x : Nat) : (s.observe a k v).ctl x = s.ctl x := rfl
@[simp] theorem observe_ns (a k : Nat) (v : Int) (x : Nat) : (s.observe a k v).ns x = s.ns x := rfl
@[simp] theorem observe_prog (a k : Nat) (v : Int) (x : Nat) : (s.observe a k v).prog x = s.prog x := rfl
@[simp] theorem observe_op (a k : Nat) (v : Int) (x : Nat) : (s.observe a k v).op x = s.op x := rfl
@[simp] theorem observe_port (a k : Nat) (v : Int) (x : Nat) : (s.observe a k v).port x = s.port x := rfl
@[simp] theorem observe_stack (a k : Nat) (v : Int) (x : Nat) : (s.observe a k v).stack x = s.stack x := rfl
@[simp] theorem observe_blk (a k : Nat) (v : Int) (x : Nat) : (s.observe a k v).blk x = s.blk x := rfl
@[simp] theorem observe_arr (a k : Nat) (v : Int) (x y : Nat) : (s.observe a k v).arr x y = s.arr x y := rfl
@[simp] theorem observe_scan (a k : Nat) (v : Int) (x : Nat) : (s.observe a k v).scan x = s.scan x := rfl
@[simp] theorem observe_now (a k : Nat) (v : Int) : (s.observe a k v).now = s.now := rfl
@[simp] theorem observe_dieNow (a k : Nat) (v : Int) (x : Nat) : (s.observe a k v).dieNow x = s.dieNow x := rfl
@[simp] theorem observe_lifeCycle (a k : Nat) (v : Int) : (s.observe a k v).lifeCycle = s.lifeCycle := rfl

/-! ## journal -/

@[simp] theorem journal_pending (e : JEntry) : (s.journal e).pending = s.pending := rfl
@[simp] theorem journal_mfg (e : JEntry) : (s.journal e).mfg = s.mfg := rfl
@[simp] theorem journal_clk (e : JEntry) : (s.journal e).clk = s.clk := rfl
@[simp] theorem journal_host (e : JEntry) : (s.journal e).host = s.host := rfl
@[simp] theorem journal_benches (e : JEntry) : (s.journal e).benches = s.benches := rfl
@[simp] theorem journal_regions (e : JEntry) : (s.journal e).regions = s.regions := rfl
@[simp] theorem journal_ts (e : JEntry) : (s.journal e).ts = s.ts := rfl
@[simp] theorem journal_flash (e : JEntry) : (s.journal e).flash = s.flash := rfl
@[simp] theorem journal_scans (e : JEntry) : (s.journal e).scans = s.scans := rfl
@[simp] theorem journal_fabric (e : JEntry) : (s.journal e).fabric = s.fabric := rfl
@[simp] theorem journal_ckpt (e : JEntry) : (s.journal e).ckpt = s.ckpt := rfl
@[simp] theorem journal_sec (e : JEntry) : (s.journal e).sec = s.sec := rfl
@[simp] theorem journal_power (e : JEntry) : (s.journal e).power = s.power := rfl
@[simp] theorem journal_resets (e : JEntry) : (s.journal e).resets = s.resets := rfl
@[simp] theorem journal_bench (e : JEntry) (x : Nat) : (s.journal e).bench x = s.bench x := rfl
@[simp] theorem journal_region (e : JEntry) (x : Nat) : (s.journal e).region x = s.region x := rfl
@[simp] theorem journal_die (e : JEntry) (x : Nat) : (s.journal e).die x = s.die x := rfl
@[simp] theorem journal_extent (e : JEntry) (x y : Nat) : (s.journal e).extent x y = s.extent x y := rfl
@[simp] theorem journal_ctl (e : JEntry) (x : Nat) : (s.journal e).ctl x = s.ctl x := rfl
@[simp] theorem journal_ns (e : JEntry) (x : Nat) : (s.journal e).ns x = s.ns x := rfl
@[simp] theorem journal_prog (e : JEntry) (x : Nat) : (s.journal e).prog x = s.prog x := rfl
@[simp] theorem journal_op (e : JEntry) (x : Nat) : (s.journal e).op x = s.op x := rfl
@[simp] theorem journal_port (e : JEntry) (x : Nat) : (s.journal e).port x = s.port x := rfl
@[simp] theorem journal_stack (e : JEntry) (x : Nat) : (s.journal e).stack x = s.stack x := rfl
@[simp] theorem journal_blk (e : JEntry) (x : Nat) : (s.journal e).blk x = s.blk x := rfl
@[simp] theorem journal_arr (e : JEntry) (x y : Nat) : (s.journal e).arr x y = s.arr x y := rfl
@[simp] theorem journal_scan (e : JEntry) (x : Nat) : (s.journal e).scan x = s.scan x := rfl
@[simp] theorem journal_now (e : JEntry) : (s.journal e).now = s.now := rfl
@[simp] theorem journal_dieNow (e : JEntry) (x : Nat) : (s.journal e).dieNow x = s.dieNow x := rfl
@[simp] theorem journal_lifeCycle (e : JEntry) : (s.journal e).lifeCycle = s.lifeCycle := rfl

/-! ## repairNote -/

@[simp] theorem repairNote_pending (a b c d : Nat) : (s.repairNote a b c d).pending = s.pending := rfl
@[simp] theorem repairNote_mfg (a b c d : Nat) : (s.repairNote a b c d).mfg = s.mfg := rfl
@[simp] theorem repairNote_clk (a b c d : Nat) : (s.repairNote a b c d).clk = s.clk := rfl
@[simp] theorem repairNote_host (a b c d : Nat) : (s.repairNote a b c d).host = s.host := rfl
@[simp] theorem repairNote_benches (a b c d : Nat) : (s.repairNote a b c d).benches = s.benches := rfl
@[simp] theorem repairNote_regions (a b c d : Nat) : (s.repairNote a b c d).regions = s.regions := rfl
@[simp] theorem repairNote_ts (a b c d : Nat) : (s.repairNote a b c d).ts = s.ts := rfl
@[simp] theorem repairNote_flash (a b c d : Nat) : (s.repairNote a b c d).flash = s.flash := rfl
@[simp] theorem repairNote_scans (a b c d : Nat) : (s.repairNote a b c d).scans = s.scans := rfl
@[simp] theorem repairNote_fabric (a b c d : Nat) : (s.repairNote a b c d).fabric = s.fabric := rfl
@[simp] theorem repairNote_ckpt (a b c d : Nat) : (s.repairNote a b c d).ckpt = s.ckpt := rfl
@[simp] theorem repairNote_sec (a b c d : Nat) : (s.repairNote a b c d).sec = s.sec := rfl
@[simp] theorem repairNote_power (a b c d : Nat) : (s.repairNote a b c d).power = s.power := rfl
@[simp] theorem repairNote_resets (a b c d : Nat) : (s.repairNote a b c d).resets = s.resets := rfl
@[simp] theorem repairNote_bench (a b c d : Nat) (x : Nat) : (s.repairNote a b c d).bench x = s.bench x := rfl
@[simp] theorem repairNote_region (a b c d : Nat) (x : Nat) : (s.repairNote a b c d).region x = s.region x := rfl
@[simp] theorem repairNote_die (a b c d : Nat) (x : Nat) : (s.repairNote a b c d).die x = s.die x := rfl
@[simp] theorem repairNote_extent (a b c d : Nat) (x y : Nat) : (s.repairNote a b c d).extent x y = s.extent x y := rfl
@[simp] theorem repairNote_ctl (a b c d : Nat) (x : Nat) : (s.repairNote a b c d).ctl x = s.ctl x := rfl
@[simp] theorem repairNote_ns (a b c d : Nat) (x : Nat) : (s.repairNote a b c d).ns x = s.ns x := rfl
@[simp] theorem repairNote_prog (a b c d : Nat) (x : Nat) : (s.repairNote a b c d).prog x = s.prog x := rfl
@[simp] theorem repairNote_op (a b c d : Nat) (x : Nat) : (s.repairNote a b c d).op x = s.op x := rfl
@[simp] theorem repairNote_port (a b c d : Nat) (x : Nat) : (s.repairNote a b c d).port x = s.port x := rfl
@[simp] theorem repairNote_stack (a b c d : Nat) (x : Nat) : (s.repairNote a b c d).stack x = s.stack x := rfl
@[simp] theorem repairNote_blk (a b c d : Nat) (x : Nat) : (s.repairNote a b c d).blk x = s.blk x := rfl
@[simp] theorem repairNote_arr (a b c d : Nat) (x y : Nat) : (s.repairNote a b c d).arr x y = s.arr x y := rfl
@[simp] theorem repairNote_scan (a b c d : Nat) (x : Nat) : (s.repairNote a b c d).scan x = s.scan x := rfl
@[simp] theorem repairNote_now (a b c d : Nat) : (s.repairNote a b c d).now = s.now := rfl
@[simp] theorem repairNote_dieNow (a b c d : Nat) (x : Nat) : (s.repairNote a b c d).dieNow x = s.dieNow x := rfl
@[simp] theorem repairNote_lifeCycle (a b c d : Nat) : (s.repairNote a b c d).lifeCycle = s.lifeCycle := rfl

/-! ## busy -/

@[simp] theorem busy_pending (r : Nat) : (s.busy r).pending = s.pending := rfl
@[simp] theorem busy_mfg (r : Nat) : (s.busy r).mfg = s.mfg := rfl
@[simp] theorem busy_clk (r : Nat) : (s.busy r).clk = s.clk := rfl
@[simp] theorem busy_host (r : Nat) : (s.busy r).host = s.host := rfl
@[simp] theorem busy_benches (r : Nat) : (s.busy r).benches = s.benches := rfl
@[simp] theorem busy_ts (r : Nat) : (s.busy r).ts = s.ts := rfl
@[simp] theorem busy_flash (r : Nat) : (s.busy r).flash = s.flash := rfl
@[simp] theorem busy_scans (r : Nat) : (s.busy r).scans = s.scans := rfl
@[simp] theorem busy_fabric (r : Nat) : (s.busy r).fabric = s.fabric := rfl
@[simp] theorem busy_ckpt (r : Nat) : (s.busy r).ckpt = s.ckpt := rfl
@[simp] theorem busy_sec (r : Nat) : (s.busy r).sec = s.sec := rfl
@[simp] theorem busy_mgmt (r : Nat) : (s.busy r).mgmt = s.mgmt := rfl
@[simp] theorem busy_power (r : Nat) : (s.busy r).power = s.power := rfl
@[simp] theorem busy_resets (r : Nat) : (s.busy r).resets = s.resets := rfl
@[simp] theorem busy_bench (r : Nat) (x : Nat) : (s.busy r).bench x = s.bench x := rfl
@[simp] theorem busy_die (r : Nat) (x : Nat) : (s.busy r).die x = s.die x := rfl
@[simp] theorem busy_extent (r : Nat) (x y : Nat) : (s.busy r).extent x y = s.extent x y := rfl
@[simp] theorem busy_ctl (r : Nat) (x : Nat) : (s.busy r).ctl x = s.ctl x := rfl
@[simp] theorem busy_ns (r : Nat) (x : Nat) : (s.busy r).ns x = s.ns x := rfl
@[simp] theorem busy_prog (r : Nat) (x : Nat) : (s.busy r).prog x = s.prog x := rfl
@[simp] theorem busy_op (r : Nat) (x : Nat) : (s.busy r).op x = s.op x := rfl
@[simp] theorem busy_port (r : Nat) (x : Nat) : (s.busy r).port x = s.port x := rfl
@[simp] theorem busy_stack (r : Nat) (x : Nat) : (s.busy r).stack x = s.stack x := rfl
@[simp] theorem busy_blk (r : Nat) (x : Nat) : (s.busy r).blk x = s.blk x := rfl
@[simp] theorem busy_arr (r : Nat) (x y : Nat) : (s.busy r).arr x y = s.arr x y := rfl
@[simp] theorem busy_scan (r : Nat) (x : Nat) : (s.busy r).scan x = s.scan x := rfl
@[simp] theorem busy_now (r : Nat) : (s.busy r).now = s.now := rfl
@[simp] theorem busy_dieNow (r : Nat) (x : Nat) : (s.busy r).dieNow x = s.dieNow x := rfl
@[simp] theorem busy_lifeCycle (r : Nat) : (s.busy r).lifeCycle = s.lifeCycle := rfl

end Sys2Proof.Machine
end

