-- ==== Sys2Proof/Laws/Ops.lean ====
section
/-! SUPPORT. What the shared operations of the command frame do: the fetch of a command, the posting of a completion and
the end of an operation. -/

namespace Sys2Proof.Machine

/-! ## Tables of the state -/

@[simp] theorem modBench_bench_same (s : State) (b : Nat) (f : Bench → Bench) :
    (s.modBench b f).bench b = f (s.bench b) := by simp [State.bench, State.modBench]

@[simp] theorem modBench_bench_other (s : State) (b x : Nat) (f : Bench → Bench) (h : x ≠ b) :
    (s.modBench b f).bench x = s.bench x := by simp [State.bench, State.modBench, h]

@[simp] theorem modRegion_region_same (s : State) (r : Nat) (f : Region → Region) :
    (s.modRegion r f).region r = f (s.region r) := by simp [State.region, State.modRegion]

@[simp] theorem modRegion_region_other (s : State) (r x : Nat) (f : Region → Region) (h : x ≠ r) :
    (s.modRegion r f).region x = s.region x := by simp [State.region, State.modRegion, h]

@[simp] theorem modCtl_ctl_same (s : State) (n : Nat) (f : Controller → Controller) :
    (s.modCtl n f).ctl n = f (s.ctl n) := by simp [State.ctl, State.modCtl, State.modHost]

@[simp] theorem modCtl_ctl_other (s : State) (n x : Nat) (f : Controller → Controller) (h : x ≠ n) :
    (s.modCtl n f).ctl x = s.ctl x := by simp [State.ctl, State.modCtl, State.modHost, h]

@[simp] theorem modDie_die_same (s : State) (d : Nat) (f : Die → Die) :
    (s.modDie d f).die d = f (s.die d) := by simp [State.die, State.modDie, State.modTs]

@[simp] theorem modDie_die_other (s : State) (d x : Nat) (f : Die → Die) (h : x ≠ d) :
    (s.modDie d f).die x = s.die x := by simp [State.die, State.modDie, State.modTs, h]

@[simp] theorem modProg_prog_same (s : State) (k : Nat) (f : Prog → Prog) :
    (s.modProg k f).prog k = f (s.prog k) := by simp [State.prog, State.modProg, State.modHost]

@[simp] theorem modNs_ns_same (s : State) (n : Nat) (f : Ns → Ns) :
    (s.modNs n f).ns n = f (s.ns n) := by simp [State.ns, State.modNs, State.modHost]

@[simp] theorem modPort_port_same (s : State) (p : Nat) (f : Port → Port) :
    (s.modPort p f).port p = f (s.port p) := by simp [State.port, State.modPort, State.modFabric]

@[simp] theorem modStack_stack_same (s : State) (k : Nat) (f : Stack → Stack) :
    (s.modStack k f).stack k = f (s.stack k) := by simp [State.stack, State.modStack, State.modFlash]

@[simp] theorem modBlk_blk_same (s : State) (b : Nat) (f : Blk → Blk) :
    (s.modBlk b f).blk b = f (s.blk b) := by simp [State.blk, State.modBlk, State.modFlash]

/-! ## Posting -/

theorem observe_mgmt (s : State) (a k : Nat) (v : Int) :
    (s.observe a k v).mgmt = { s.mgmt with monitors := (s.observe a k v).mgmt.monitors } := rfl

/-- Where its controller is ready, a completion entry is appended with what is written to host memory for it, and nothing
else of the host port changes but the controllers. -/
theorem post_host (s : State) (e : Completion) (n : Nat) (h : (s.ctl e.src.fn).rdy = true) :
    (s.post e n).host =
      { s.host with
        completions := s.host.completions ++ [e]
        hostWrites := s.host.hostWrites ++ e.writes ((s.ctl e.src.fn).cqOf e.src.sq) s.host.completions.length
        controllers := tmod {} s.host.controllers e.src.fn fun k => { k with idleSince := s.now } } := by
  simp [State.post, h]
  simp [State.modCtl, State.modHost]

/-- A controller that is not ready is sent nothing. -/
theorem post_lost (s : State) (e : Completion) (n : Nat) (h : (s.ctl e.src.fn).rdy = false) :
    s.post e n = s := by simp [State.post, h]

theorem post_mgmt (s : State) (e : Completion) (n : Nat) :
    (s.post e n).mgmt = { s.mgmt with monitors := (s.post e n).mgmt.monitors } := by
  unfold State.post
  split
  · simp [State.observe, State.modMgmt]
  · rfl

theorem post_core (s : State) (e : Completion) (n : Nat) :
    CoreSame s (s.post e n) ∧ (s.post e n).regions = s.regions := by
  unfold State.post
  split <;> exact ⟨by constructor <;> simp, by simp⟩

theorem post_ctl_other (s : State) (e : Completion) (n f : Nat) (h : f ≠ e.src.fn) :
    (s.post e n).ctl f = s.ctl f := by
  unfold State.post
  split
  · simp [State.ctl, State.modCtl, State.modHost, h]
  · rfl

/-- The readiness of a controller is not changed by a completion. -/
theorem post_rdy (s : State) (e : Completion) (n f : Nat) : ((s.post e n).ctl f).rdy = (s.ctl f).rdy := by
  by_cases h : f = e.src.fn
  · unfold State.post
    split
    · subst h; simp [State.ctl, State.modCtl, State.modHost]
    · rfl
  · rw [post_ctl_other s e n f h]

/-! ## The fetch of a command -/

theorem holdPatrol_host (s : State) : s.holdPatrol.host =
    { s.host with patrolHeld := s.holdPatrol.host.patrolHeld, patrolLost := s.holdPatrol.host.patrolLost } := by
  unfold State.holdPatrol State.modHost
  dsimp only
  split <;> rfl

theorem settlePower_core (s : State) : CoreSame s s.settlePower ∧ s.settlePower.mgmt = s.mgmt := by
  unfold State.settlePower
  dsimp only
  split <;> exact ⟨by constructor <;> rfl, rfl⟩

/-- The power state in effect and the wait of the patrol are all that changes of the host port. -/
theorem settlePower_host (s : State) : s.settlePower.host = { s.host with
    powerState := s.askedPs
    patrolHeld := s.settlePower.host.patrolHeld
    patrolLost := s.settlePower.host.patrolLost } := by
  have h := holdPatrol_host (s.modHost fun h => { h with powerState := s.askedPs })
  unfold State.settlePower
  dsimp only
  split
  · exact h
  · exact h

/-- A fetch changes one controller and whose turn it is, and wakes the module from a non-operational power state; nothing
else. -/
theorem fetch_host (s : State) (c : Src) :
    (s.fetch c).host = { s.host with
      powerState := (s.fetch c).host.powerState
      patrolHeld := (s.fetch c).host.patrolHeld
      patrolLost := (s.fetch c).host.patrolLost
      turn := (s.fetch c).host.turn
      controllers := (s.fetch c).host.controllers } := by
  unfold State.fetch
  dsimp only
  split
  · rename_i hps
    have h := settlePower_host ((s.modCtl c.fn (Controller.fetched c.sq
      (s.nextFetch == some (c.fn, c.sq)))).modHost fun h => { h with
        turn := if (s.nextFetch == some (c.fn, c.sq)) = true then c.fn else h.turn })
    rw [h]; rfl
  · rfl

theorem fetch_core (s : State) (c : Src) : CoreSame s (s.fetch c) ∧ (s.fetch c).mgmt = s.mgmt := by
  unfold State.fetch
  dsimp only
  split
  · obtain ⟨h1, h2⟩ := settlePower_core ((s.modCtl c.fn (Controller.fetched c.sq
      (s.nextFetch == some (c.fn, c.sq)))).modHost fun h => { h with
        turn := if (s.nextFetch == some (c.fn, c.sq)) = true then c.fn else h.turn })
    exact ⟨⟨h1.1, h1.2, h1.3, h1.4, h1.5, h1.6, h1.7, h1.8, h1.9, h1.10, h1.11, h1.12⟩, h2⟩
  · exact ⟨by constructor <;> rfl, rfl⟩

theorem fetch_ctl (s : State) (c : Src) :
    (s.fetch c).ctl c.fn = (s.ctl c.fn).fetched c.sq (s.nextFetch == some (c.fn, c.sq)) := by
  unfold State.fetch
  dsimp only
  split
  · rw [State.ctl, settlePower_host]
    simp [State.modCtl, State.modHost, State.ctl]
  · simp [State.modCtl, State.modHost, State.ctl]

theorem fetch_ctl_other (s : State) (c : Src) (f : Nat) (h : f ≠ c.fn) : (s.fetch c).ctl f = s.ctl f := by
  unfold State.fetch
  dsimp only
  split
  · rw [State.ctl, settlePower_host]
    simp [State.modCtl, State.modHost, State.ctl, h]
  · simp [State.modCtl, State.modHost, State.ctl, h]

theorem fetch_rdy (s : State) (c : Src) (f : Nat) : ((s.fetch c).ctl f).rdy = (s.ctl f).rdy := by
  by_cases h : f = c.fn
  · subst h; rw [fetch_ctl]; rfl
  · rw [fetch_ctl_other s c f h]

theorem fetch_regions (s : State) (c : Src) (h : (s.ctl c.fn).ps < 3) : (s.fetch c).regions = s.regions := by
  unfold State.fetch
  dsimp only
  rw [if_neg (by omega)]
  rfl

/-! ## Host commands -/

/-- An accepted command is done on the state after its fetch. -/
theorem hostCmd_accepts (c : Src) (k : CmdClass) (f : State → State) (s : State) (h : Accepts c k s) :
    hostCmd c k f s = f (s.fetch c) := by simp [hostCmd, h.1, h.2]

/-- A command that cannot be fetched changes nothing. -/
theorem hostCmd_unready (c : Src) (k : CmdClass) (f : State → State) (s : State)
    (h : s.takes c = false) : hostCmd c k f s = s := by simp [hostCmd, h]

/-- A command that the life-cycle state does not permit ends with Command Sequence Error. -/
theorem hostCmd_refused (c : Src) (k : CmdClass) (f : State → State) (s : State)
    (h : s.takes c = true) (hp : permits k s.lifeCycle = false) :
    hostCmd c k f s = (s.fetch c).done c .commandSequenceError := by simp [hostCmd, h, hp]

theorem pfCmd_accepts (c : Src) (k : CmdClass) (f : State → State) (s : State) (h : AcceptsPf c k s) :
    pfCmd c k f s = f (s.fetch c) := by
  rw [pfCmd, hostCmd_accepts c k _ s h.1, if_pos h.2]

/-- A command that only posts an entry for its own controller leaves everything of `HostFrame` as it was. -/
theorem fetch_post_frame (s : State) (c : Src) (e : Completion) (n : Nat) (he : e.src = c) :
    HostFrame c s ((s.fetch c).post e n) := by
  obtain ⟨a, am⟩ := fetch_core s c
  obtain ⟨b, br⟩ := post_core (s.fetch c) e n
  have hh := fetch_host s c
  refine ⟨⟨?_, ?_, ?_, ?_, ?_, ?_, ?_, ?_, ?_, ?_, ?_, ?_⟩, ?_, ?_, ?_, ?_, ?_⟩
  · rw [b.1, a.1]
  · rw [b.2, a.2]
  · rw [b.3, a.3]
  · rw [b.4, a.4]
  · rw [b.5, a.5]
  · rw [b.6, a.6]
  · rw [b.7, a.7]
  · rw [b.8, a.8]
  · rw [b.9, a.9]
  · rw [b.10, a.10]
  · rw [b.11, a.11]
  · rw [b.12, a.12]
  · show ((s.fetch c).post e n).mgmt = { s.mgmt with monitors := ((s.fetch c).post e n).mgmt.monitors }
    rw [post_mgmt, am]
  · intro hp; rw [br, fetch_regions s c hp]
  · unfold State.post
    split
    · simp [State.modCtl, State.modHost]; rw [hh]
    · rw [hh]
  · unfold State.post
    split
    · simp [State.modCtl, State.modHost]; rw [hh]
    · rw [hh]
  · intro f hf
    rw [post_ctl_other _ _ _ _ (by rw [he]; exact hf), fetch_ctl_other s c f hf]

/-- An accepted command that posts an entry for its own controller posts exactly that entry. -/
theorem fetch_post_posts (s : State) (c : Src) (e : Completion) (n : Nat) (he : e.src = c)
    (h : (s.ctl c.fn).rdy = true) : Posts s ((s.fetch c).post e n) e := by
  show ((s.fetch c).post e n).host.completions = _
  rw [post_host _ _ _ (by rw [he, fetch_rdy]; exact h), fetch_host s c]

end Sys2Proof.Machine
end

