-- ==== Sys2Proof/WellFormed.lean ====
section
/-! DEFINITION. Which commands are well formed: every operand within the range that its field or its
place in the numbering has (R5, R293-R297). A command outside them cannot be encoded or has no place. -/

namespace Sys2Proof

/-- A function number of R293, a queue of R295, a 16-bit command identifier. -/
def Src.wf (c : Src) : Bool := decide (c.fn < 34) && decide (c.sq ≤ 64) && decide (c.cid < 65536)

/-- A setting within the widths of its fields. -/
def HostSetting.wf : HostSetting → Bool
  | .arbitration burst low medium high =>
    decide (burst < 8) && decide (low < 256) && decide (medium < 256) && decide (high < 256)
  | .eventsOff codes => codes.all fun c => decide (0x20 ≤ c) && decide (c < 256)
  | .apst _ => true
  | .permissive _ => true

/-- A buffer in canonical form whose bytes lie within its length. -/
def Buf.wf (b : Buf) : Bool := Mem.wf b.bytes && b.bytes.all fun e => decide (e.1 < b.len)

/-- A block count of an NVM command: 1 to 65,536 (a 16-bit field counted from 0). -/
def nlbOk (n : Nat) : Bool := decide (1 ≤ n) && decide (n ≤ 65536)

/-- A list of bytes of exactly `n` bytes. -/
def bytesOk (n : Nat) (bs : List Byte) : Bool := decide (bs.length = n)

/-- A page read: page, the step of Table 11.4 that succeeds, and the bits that it corrects; at step 5, which none does, the
mask of the four codewords that fail. -/
def readWf (e : Nat × Nat × Nat) : Bool :=
  decide (e.1 < 2 ^ 33) && decide (e.2.1 ≤ 5) && decide (e.2.2 < 65536) &&
    (e.2.1 != 5 || (decide (1 ≤ e.2.2) && decide (e.2.2 < 16)))

/-- Which commands are well formed. -/
def Instr.wf : Instr → Bool
  | .read c nsid slba blocks => c.wf && decide (nsid < 2 ^ 32) && decide (slba < 2 ^ 64) && nlbOk blocks
  | .write c nsid slba blocks bytes =>
    c.wf && decide (nsid < 2 ^ 32) && decide (slba < 2 ^ 64) && nlbOk blocks && Mem.wf bytes &&
      bytes.all fun e => decide (e.1 < 4096 * blocks)
  | .writeZeroes c nsid slba blocks =>
    c.wf && decide (nsid < 2 ^ 32) && decide (slba < 2 ^ 64) && nlbOk blocks
  | .deallocate c nsid ranges =>
    c.wf && decide (nsid < 2 ^ 32) && decide (1 ≤ ranges.length) && decide (ranges.length ≤ 256) &&
      ranges.all fun r => decide (r.1 < 2 ^ 64) && decide (r.2 < 2 ^ 32)
  | .flush c nsid => c.wf && decide (nsid < 2 ^ 32)
  | .verify c nsid slba blocks =>
    c.wf && decide (nsid < 2 ^ 32) && decide (slba < 2 ^ 64) && nlbOk blocks
  | .writeAccept _ => true
  | .iuReadBack _ _ _ => true
  | .journalRecordDurable => true
  | .abort c sq cid => c.wf && decide (sq ≤ 64) && decide (cid < 65536)
  | .identify c cns nsid => c.wf && decide (cns < 256) && decide (nsid < 2 ^ 32)
  | .getLogPage c lid offset len =>
    c.wf && decide (lid < 256) && decide (offset < 2 ^ 64) && decide (4 ≤ len) && decide (len ≤ 2 ^ 34)
  | .getFeatures c fid select => c.wf && decide (fid < 256) && decide (select < 8)
  | .mediaEarlyWarning c _ _ => c.wf
  | .patrolPeriod c _ _ => c.wf
  | .portMode c _ _ => c.wf
  | .encryptNewNamespaces c _ _ => c.wf
  | .powerCap c _ _ => c.wf
  | .powerManagement c ps _ => c.wf && decide (ps < 32)
  | .autonomousPowerStateTransition c setting table =>
    c.wf && setting.wf && decide (table.length ≤ 32) && table.all fun e => decide (e.1 < 32) && decide (e.2 < 2 ^ 24)
  | .hostMemoryBuffer c _ bytes => c.wf && decide (bytes < 2 ^ 64)
  | .powerStateIdleEntry fn => decide (fn < 34)
  | .formatNvm c nsid ses => c.wf && decide (nsid < 2 ^ 32) && decide (ses < 8)
  | .sanitize c action => c.wf && decide (action < 8)
  | .namespaceManagement c choice nsid blocks =>
    c.wf && decide (choice < 16) && decide (nsid < 2 ^ 32) && decide (blocks < 2 ^ 64)
  | .namespaceAttachment c choice nsid fns =>
    c.wf && decide (choice < 16) && decide (nsid < 2 ^ 32) && fns.all fun f => decide (f < 34)
  | .createIoQueue c _ qid entries cq prio =>
    c.wf && decide (qid < 65536) && decide (1 ≤ entries) && decide (entries ≤ 65536) &&
      decide (cq < 65536) && decide (prio < 4)
  | .asynchronousEventRequest c => c.wf
  | .firmwareImageDownload c offset bytes => c.wf && decide (offset < 2 ^ 34) && bytes.wf
  | .firmwareCommit c action slot => c.wf && decide (action < 8) && decide (slot < 8)
  | .loadProgram c index kind image =>
    c.wf && decide (index < 65536) && decide (kind < 256) && image.wf
  | .unloadProgram c index => c.wf && decide (index < 65536)
  | .programActivationManagement c index _ => c.wf && decide (index < 65536)
  | .executeProgram c index params => c.wf && decide (index < 65536) && params.wf
  | .executeScan c index params bufLen _ =>
    c.wf && decide (index < 65536) && params.wf && decide (bufLen ≤ 2 ^ 32)
  | .memoryRead c addr len => c.wf && decide (addr < 2 ^ 48) && decide (1 ≤ len) && decide (len ≤ 2 ^ 21)
  | .memoryWrite c addr bytes =>
    c.wf && decide (addr < 2 ^ 48) && bytes.wf && decide (1 ≤ bytes.len) && decide (bytes.len ≤ 2 ^ 21)
  | .memoryCopy c addr nsid slba blocks _ =>
    c.wf && decide (addr < 2 ^ 48) && decide (nsid < 2 ^ 32) && decide (slba < 2 ^ 64) && nlbOk blocks
  | .extentCreate c _ => c.wf
  | .extentFree c _ _ => c.wf
  | .extentFreeEffect die slot => decide (die < 2) && decide (slot < 65536)
  | .extentPin c _ _ _ => c.wf
  | .extentUnpin c _ _ => c.wf
  | .extentPlace c _ _ _ => c.wf
  | .tensorSpaceConfigure c _ => c.wf
  | .quotaSet c _ _ => c.wf
  | .hoistListAttach c _ _ image => c.wf && image.wf
  | .directProgram c _ _ bytes _ => c.wf && bytes.wf
  | .directRead c _ _ _ => c.wf
  | .directErase c _ _ => c.wf
  | .directMediaReserve c _ => c.wf
  | .fabricConfigure c _ _ => c.wf
  | .peerWindowAccept c _ _ _ => c.wf
  | .peerWindowBind c _ _ _ _ _ _ => c.wf
  | .peerWindowRelease c _ _ => c.wf
  | .peerCopy c _ _ _ _ _ _ => c.wf
  | .checkpointReserve c _ => c.wf
  | .checkpointConfigure c _ _ _ _ manifest => c.wf && manifest.wf
  | .checkpointCut c _ _ _ => c.wf
  | .checkpointWait c _ _ => c.wf
  | .checkpointRestore c _ _ _ => c.wf
  | .takeover c _ => c.wf
  | .interruptionReport c => c.wf
  | .provisionBegin c => c.wf
  | .certificateInstall c _ _ chain => c.wf && chain.wf
  | .lifeCycleNonce c => c.wf
  | .lifeCycleTransition c _ auth => c.wf && auth.wf
  | .programSigningConfigure c _ key => c.wf && key.wf
  | .readNvmeMiDataStructure dtype => decide (dtype < 256)
  | .subsystemHealthStatusPoll => true
  | .controllerHealthStatusPoll fn => decide (fn < 34)
  | .configurationGet id => decide (id < 256)
  | .configurationSet id _ => decide (id < 256)
  | .vpdRead offset len => decide (offset < 65536) && decide (len < 65536)
  | .vpdWrite offset bytes => decide (offset < 65536) && decide (bytes.length < 65536)
  | .getVersion port => decide (port < 2)
  | .getCertificate port slot offset len =>
    decide (port < 2) && decide (slot < 8) && decide (offset < 65536) && decide (len < 65536)
  | .challenge port slot nonce => decide (port < 2) && decide (slot < 8) && bytesOk 32 nonce
  | .getMeasurements port index nonce => decide (port < 2) && decide (index < 256) && bytesOk 32 nonce
  | .keyExchange port encapKey _ => decide (port < 2) && bytesOk 1184 encapKey
  | .heartbeat port session => decide (port < 2) && decide (session < 2 ^ 32)
  | .programKeySet port session _ key => decide (port < 2) && decide (session < 2 ^ 32) && key.wf
  | .sqDoorbell fn sq tail => decide (fn < 34) && decide (sq ≤ 64) && decide (tail < 65536)
  | .controllerEnable fn _ => decide (fn < 34)
  | .controllerReady fn => decide (fn < 34)
  | .controllerDisable fn => decide (fn < 34)
  | .nvmSubsystemReset fn => decide (fn < 34)
  | .functionLevelReset fn => decide (fn < 34)
  | .registerWrite fn offset _ _ => decide (fn < 34) && decide (offset < 2 ^ 26)
  | .windowAccess fn offset _ _ _ => decide (fn < 34) && decide (offset < 2 ^ 26)
  | .kclkLowRead fn counter => decide (fn < 34) && decide (counter < 3)
  | .scrubPassStart fn _ => decide (fn < 34)
  | .scrubPassDone => true
  | .haulEngineErrorClear fn region _ => decide (fn < 34) && decide (region < 8)
  | .haulEngineReArm fn region _ => decide (fn < 34) && decide (region < 8)
  | .lineDescriptorWrite fn region line _ =>
    decide (fn < 34) && decide (region < 8) && decide (line < 64)
  | .extentSnapshotSelect fn die _ => decide (fn < 34) && decide (die < 2)
  | .portDisable fn port => decide (fn < 34) && decide (port < 8)
  | .portEnable fn port => decide (fn < 34) && decide (port < 8)
  | .eccTestArm fn _ => decide (fn < 34)
  | .monitorConfigure fn monitor _ _ => decide (fn < 34) && decide (monitor < 64)
  | .maxStepWrite fn region _ => decide (fn < 34) && decide (region < 8)
  | .perstAssert port => decide (port < 2)
  | .perstDeassert port speed width => decide (port < 2) && decide (speed ≤ 5) && decide (width ≤ 16)
  | .attnPress => true
  | .attentionBlinkExpire => true
  | .pwrdisAssert => true
  | .pwrdisRelease => true
  | .sidebandStuck input => decide (input < 4)
  | .mainSwitchClose => true
  | .undervoltage _ => true
  | .overvoltage _ => true
  | .inputRecovered => true
  | .powerLoss => true
  | .watchdogExpiry => true
  | .bootChain => true
  | .regionReset region kind memory bench _ =>
    decide (region < 8) && decide (kind < 256) && decide (memory < 256) && decide (bench < 256)
  | .faceDieReset die kind memory detail _ =>
    decide (die < 2) && decide (kind < 256) && decide (memory < 256) && decide (detail < 256)
  | .moduleReset kind memory => decide (kind < 256) && decide (memory < 256)
  | .coldReset cause => decide (1 ≤ cause) && decide (cause ≤ 5)
  | .resetComplete failed duration => (failed.all fun g => decide (g < 160)) && decide (duration < 2 ^ 32)
  | .mount sample => sample.all readWf
  | .dramErasureModeEnter stack coreDie => decide (stack < 4) && decide (coreDie < 16)
  | .secondDieErasureCriteria stack coreDie => decide (stack < 4) && decide (coreDie < 16)
  | .scrubRead memory place _ _ _ errors =>
    decide (memory < 13) && decide (place < 40) && decide (errors.length ≤ 16)
  | .dieFabricError die => decide (die < 2)
  | .sequencerStep bench => decide (bench < 40)
  | .endComplete bench => decide (bench < 40)
  | .barrierRelease bench barrier => decide (bench < 40) && decide (barrier < 32)
  | .waitLimitExpire bench => decide (bench < 40)
  | .arrayLoad bench array => decide (bench < 40) && decide (array < 4)
  | .loadLatch bench array _ => decide (bench < 40) && decide (array < 4)
  | .arrayStream bench array _ => decide (bench < 40) && decide (array < 4)
  | .streamEnd bench array => decide (bench < 40) && decide (array < 4)
  | .arrayDrain bench array => decide (bench < 40) && decide (array < 4)
  | .drainEnd bench array => decide (bench < 40) && decide (array < 4)
  | .gateFire bench => decide (bench < 40)
  | .ld bench => decide (bench < 40)
  | .st bench => decide (bench < 40)
  | .add bench => decide (bench < 40)
  | .sub bench => decide (bench < 40)
  | .mul bench => decide (bench < 40)
  | .fma bench => decide (bench < 40)
  | .max bench => decide (bench < 40)
  | .min bench => decide (bench < 40)
  | .cmplt bench => decide (bench < 40)
  | .sel bench => decide (bench < 40)
  | .div bench => decide (bench < 40)
  | .sqrt bench => decide (bench < 40)
  | .rsqrt bench => decide (bench < 40)
  | .exp bench => decide (bench < 40)
  | .cvt bench => decide (bench < 40)
  | .rsum bench => decide (bench < 40)
  | .rmax bench => decide (bench < 40)
  | .rmin bench => decide (bench < 40)
  | .quant bench => decide (bench < 40)
  | .encode bench => decide (bench < 40)
  | .routePost bench => decide (bench < 40)
  | .crSet bench => decide (bench < 40)
  | .nop bench => decide (bench < 40)
  | .remoteRouteDeliver bench => decide (bench < 40)
  | .walkerSearch bench => decide (bench < 40)
  | .walkerExpansion bench query => decide (bench < 40) && decide (query < 256)
  | .walkerPageReadDone bench page _ => decide (bench < 40) && decide (page < 2 ^ 32)
  | .burstGrant region => decide (region < 8)
  | .requestComplete region line => decide (region < 8) && decide (line < 64)
  | .mapEpochPin _ => true
  | .sievePage _ stack _ => decide (stack < 32)
  | .scanComplete _ => true
  | .freePoolCriticalFloor => true
  | .moveStart die => decide (die < 2)
  | .spaceTileLanded die slot _ => decide (die < 2) && decide (slot < 65536)
  | .hoistEngineReArm die => decide (die < 2)
  | .firstTouchCopyDone die slot tile => decide (die < 2) && decide (slot < 65536) && decide (tile < 32768)
  | .flashReadComplete ppa step bits =>
    readWf (ppa, step, bits)
  | .readCountRefresh block => decide (block < 2 ^ 23)
  | .flashEraseComplete block => decide (block < 2 ^ 23)
  | .fold block => decide (block < 2 ^ 23)
  | .garbageCollection => true
  | .gcRelocate _ => true
  | .writeThrottle => true
  | .patrolRead ppa step bits =>
    readWf (ppa, step, bits)
  | .dieRetire stack die => decide (stack < 32) && decide (die < 16)
  | .stackRetire stack => decide (stack < 32)
  | .rebuildComplete stack => decide (stack < 32)
  | .readOnlyEndOfLife => true
  | .portTrain port _ failed farMask =>
    decide (port < 8) && decide (failed < 16) && decide (farMask < 16)
  | .exchange port farIdent farPort farEpoch =>
    decide (port < 8) && decide (farIdent < 65536) && decide (farPort < 8) && decide (farEpoch < 2 ^ 32)
  | .retrain port far => decide (port < 8) && far.all fun e => decide (e.1 < 16) && decide (e.2 < 16)
  | .flitReceive port _ _ flit => decide (port < 8) && Mem.wf flit
  | .replayTimeout port => decide (port < 8)
  | .data src seq addr payload _ =>
    decide (src < 65536) && decide (seq < 2 ^ 32) && decide (addr < 2 ^ 48) && payload.wf
  | .ack src cum _ _ => decide (src < 65536) && decide (cum < 2 ^ 32)
  | .event base originator kind subject =>
    decide (base < 2 ^ 32) && decide (originator < 65536) && decide (kind < 256) &&
      decide (subject < 2 ^ 32)
  | .state port farEpoch _ _ => decide (port < 8) && decide (farEpoch < 2 ^ 32)
  | .resync src next => decide (src < 65536) && decide (next < 2 ^ 32)
  | .retransmitTimeout dst => decide (dst < 65536)
  | .alternatePortSwitch port => decide (port < 8)
  | .portDownPropose port => decide (port < 8)
  | .portUpPropose port => decide (port < 8)
  | .epochEnter => true
  | .routeTimeout coord => decide (coord < 65536)
  | .cutDue => true
  | .cutProtect => true
  | .flashCheckpointCommit => true
  | .takeoverCopyDone committed previous _ frames =>
    decide (committed < 2 ^ 64) && decide (previous < 2 ^ 64) &&
      frames.all fun f => f.data.wf && decide (f.addr < 2 ^ 48) && decide (f.addr % 65536 = 0) &&
        f.data.all fun e => decide (e.1 < 65536)
  | .managementPeriod t => decide (t.temps.length = 48)
  | .uptimeWrite => true
  | .fastLimiterEngage => true
  | .thermalShutdown sensor => decide (sensor < 48)
  | .thermalShutdownExit => true
  | .regionSleepEnter region => decide (region < 8)
  | .regionWake region => decide (region < 8)
  | .wakeComplete region => decide (region < 8)
  | .assayWindowClose monitor => decide (monitor < 64)
  | .attnRelease => true
  | .seamLinkRetrain stack => decide (stack < 32)
  | .stripeParityProgrammed _ => true
  | .flashStreamPageReadBack _ => true

/-- The issuer of a host command; none for an event, an access or a pin. -/
def Instr.issuer : Instr → Option Src
  | .read c _ _ _ => some c
  | .write c _ _ _ _ => some c
  | .writeZeroes c _ _ _ => some c
  | .deallocate c _ _ => some c
  | .flush c _ => some c
  | .verify c _ _ _ => some c
  | .writeAccept _ => none
  | .iuReadBack _ _ _ => none
  | .journalRecordDurable => none
  | .abort c _ _ => some c
  | .identify c _ _ => some c
  | .getLogPage c _ _ _ => some c
  | .getFeatures c _ _ => some c
  | .mediaEarlyWarning c _ _ => some c
  | .patrolPeriod c _ _ => some c
  | .portMode c _ _ => some c
  | .encryptNewNamespaces c _ _ => some c
  | .powerCap c _ _ => some c
  | .powerManagement c _ _ => some c
  | .autonomousPowerStateTransition c _ _ => some c
  | .hostMemoryBuffer c _ _ => some c
  | .powerStateIdleEntry _ => none
  | .formatNvm c _ _ => some c
  | .sanitize c _ => some c
  | .namespaceManagement c _ _ _ => some c
  | .namespaceAttachment c _ _ _ => some c
  | .createIoQueue c _ _ _ _ _ => some c
  | .asynchronousEventRequest c => some c
  | .firmwareImageDownload c _ _ => some c
  | .firmwareCommit c _ _ => some c
  | .loadProgram c _ _ _ => some c
  | .unloadProgram c _ => some c
  | .programActivationManagement c _ _ => some c
  | .executeProgram c _ _ => some c
  | .executeScan c _ _ _ _ => some c
  | .memoryRead c _ _ => some c
  | .memoryWrite c _ _ => some c
  | .memoryCopy c _ _ _ _ _ => some c
  | .extentCreate c _ => some c
  | .extentFree c _ _ => some c
  | .extentFreeEffect _ _ => none
  | .extentPin c _ _ _ => some c
  | .extentUnpin c _ _ => some c
  | .extentPlace c _ _ _ => some c
  | .tensorSpaceConfigure c _ => some c
  | .quotaSet c _ _ => some c
  | .hoistListAttach c _ _ _ => some c
  | .directProgram c _ _ _ _ => some c
  | .directRead c _ _ _ => some c
  | .directErase c _ _ => some c
  | .directMediaReserve c _ => some c
  | .fabricConfigure c _ _ => some c
  | .peerWindowAccept c _ _ _ => some c
  | .peerWindowBind c _ _ _ _ _ _ => some c
  | .peerWindowRelease c _ _ => some c
  | .peerCopy c _ _ _ _ _ _ => some c
  | .checkpointReserve c _ => some c
  | .checkpointConfigure c _ _ _ _ _ => some c
  | .checkpointCut c _ _ _ => some c
  | .checkpointWait c _ _ => some c
  | .checkpointRestore c _ _ _ => some c
  | .takeover c _ => some c
  | .interruptionReport c => some c
  | .provisionBegin c => some c
  | .certificateInstall c _ _ _ => some c
  | .lifeCycleNonce c => some c
  | .lifeCycleTransition c _ _ => some c
  | .programSigningConfigure c _ _ => some c
  | .readNvmeMiDataStructure _ => none
  | .subsystemHealthStatusPoll => none
  | .controllerHealthStatusPoll _ => none
  | .configurationGet _ => none
  | .configurationSet _ _ => none
  | .vpdRead _ _ => none
  | .vpdWrite _ _ => none
  | .getVersion _ => none
  | .getCertificate _ _ _ _ => none
  | .challenge _ _ _ => none
  | .getMeasurements _ _ _ => none
  | .keyExchange _ _ _ => none
  | .heartbeat _ _ => none
  | .programKeySet _ _ _ _ => none
  | .sqDoorbell _ _ _ => none
  | .controllerEnable _ _ => none
  | .controllerReady _ => none
  | .controllerDisable _ => none
  | .nvmSubsystemReset _ => none
  | .functionLevelReset _ => none
  | .registerWrite _ _ _ _ => none
  | .windowAccess _ _ _ _ _ => none
  | .kclkLowRead _ _ => none
  | .scrubPassStart _ _ => none
  | .scrubPassDone => none
  | .haulEngineErrorClear _ _ _ => none
  | .haulEngineReArm _ _ _ => none
  | .lineDescriptorWrite _ _ _ _ => none
  | .extentSnapshotSelect _ _ _ => none
  | .portDisable _ _ => none
  | .portEnable _ _ => none
  | .eccTestArm _ _ => none
  | .monitorConfigure _ _ _ _ => none
  | .maxStepWrite _ _ _ => none
  | .perstAssert _ => none
  | .perstDeassert _ _ _ => none
  | .attnPress => none
  | .attentionBlinkExpire => none
  | .pwrdisAssert => none
  | .pwrdisRelease => none
  | .sidebandStuck _ => none
  | .mainSwitchClose => none
  | .undervoltage _ => none
  | .overvoltage _ => none
  | .inputRecovered => none
  | .powerLoss => none
  | .watchdogExpiry => none
  | .bootChain => none
  | .regionReset _ _ _ _ _ => none
  | .faceDieReset _ _ _ _ _ => none
  | .moduleReset _ _ => none
  | .coldReset _ => none
  | .resetComplete _ _ => none
  | .mount _ => none
  | .dramErasureModeEnter _ _ => none
  | .secondDieErasureCriteria _ _ => none
  | .scrubRead _ _ _ _ _ _ => none
  | .dieFabricError _ => none
  | .sequencerStep _ => none
  | .endComplete _ => none
  | .barrierRelease _ _ => none
  | .waitLimitExpire _ => none
  | .arrayLoad _ _ => none
  | .loadLatch _ _ _ => none
  | .arrayStream _ _ _ => none
  | .streamEnd _ _ => none
  | .arrayDrain _ _ => none
  | .drainEnd _ _ => none
  | .gateFire _ => none
  | .ld _ => none
  | .st _ => none
  | .add _ => none
  | .sub _ => none
  | .mul _ => none
  | .fma _ => none
  | .max _ => none
  | .min _ => none
  | .cmplt _ => none
  | .sel _ => none
  | .div _ => none
  | .sqrt _ => none
  | .rsqrt _ => none
  | .exp _ => none
  | .cvt _ => none
  | .rsum _ => none
  | .rmax _ => none
  | .rmin _ => none
  | .quant _ => none
  | .encode _ => none
  | .routePost _ => none
  | .crSet _ => none
  | .nop _ => none
  | .remoteRouteDeliver _ => none
  | .walkerSearch _ => none
  | .walkerExpansion _ _ => none
  | .walkerPageReadDone _ _ _ => none
  | .burstGrant _ => none
  | .requestComplete _ _ => none
  | .mapEpochPin _ => none
  | .sievePage _ _ _ => none
  | .scanComplete _ => none
  | .freePoolCriticalFloor => none
  | .moveStart _ => none
  | .spaceTileLanded _ _ _ => none
  | .hoistEngineReArm _ => none
  | .firstTouchCopyDone _ _ _ => none
  | .flashReadComplete _ _ _ => none
  | .readCountRefresh _ => none
  | .flashEraseComplete _ => none
  | .fold _ => none
  | .garbageCollection => none
  | .gcRelocate _ => none
  | .writeThrottle => none
  | .patrolRead _ _ _ => none
  | .dieRetire _ _ => none
  | .stackRetire _ => none
  | .rebuildComplete _ => none
  | .readOnlyEndOfLife => none
  | .portTrain _ _ _ _ => none
  | .exchange _ _ _ _ => none
  | .retrain _ _ => none
  | .flitReceive _ _ _ _ => none
  | .replayTimeout _ => none
  | .data _ _ _ _ _ => none
  | .ack _ _ _ _ => none
  | .event _ _ _ _ => none
  | .state _ _ _ _ => none
  | .resync _ _ => none
  | .retransmitTimeout _ => none
  | .alternatePortSwitch _ => none
  | .portDownPropose _ => none
  | .portUpPropose _ => none
  | .epochEnter => none
  | .routeTimeout _ => none
  | .cutDue => none
  | .cutProtect => none
  | .flashCheckpointCommit => none
  | .takeoverCopyDone _ _ _ _ => none
  | .managementPeriod _ => none
  | .uptimeWrite => none
  | .fastLimiterEngage => none
  | .thermalShutdown _ => none
  | .thermalShutdownExit => none
  | .regionSleepEnter _ => none
  | .regionWake _ => none
  | .wakeComplete _ => none
  | .assayWindowClose _ => none
  | .attnRelease => none
  | .seamLinkRetrain _ => none
  | .stripeParityProgrammed _ => none
  | .flashStreamPageReadBack _ => none

end Sys2Proof
end

