-- ==== Sys2Proof/Laws/PerInstr.lean ====
section
/-! SUPPORT. The family OwnCommand, one lemma per constructor of Instr: a well-formed command that a controller issued
names an issuer within the numbering of R293 and R295. -/

namespace Sys2Proof.Laws.OwnCommand

/-- A well-formed command with an issuer has a well-formed issuer. -/
def Statement (i : Instr) : Prop := ∀ c, i.issuer = some c → i.wf = true → c.wf = true

theorem fst {a b : Bool} (h : (a && b) = true) : a = true := by cases a <;> simp_all

theorem read : ∀ a0 a1 a2 a3, Statement (.read a0 a1 a2 a3) := by
  intro a0 a1 a2 a3 c h w; cases h; exact (fst (fst (fst w)))
theorem write : ∀ a0 a1 a2 a3 a4, Statement (.write a0 a1 a2 a3 a4) := by
  intro a0 a1 a2 a3 a4 c h w; cases h; exact (fst (fst (fst (fst (fst w)))))
theorem writeZeroes : ∀ a0 a1 a2 a3, Statement (.writeZeroes a0 a1 a2 a3) := by
  intro a0 a1 a2 a3 c h w; cases h; exact (fst (fst (fst w)))
theorem deallocate : ∀ a0 a1 a2, Statement (.deallocate a0 a1 a2) := by
  intro a0 a1 a2 c h w; cases h; exact (fst (fst (fst (fst w))))
theorem flush : ∀ a0 a1, Statement (.flush a0 a1) := by
  intro a0 a1 c h w; cases h; exact (fst w)
theorem verify : ∀ a0 a1 a2 a3, Statement (.verify a0 a1 a2 a3) := by
  intro a0 a1 a2 a3 c h w; cases h; exact (fst (fst (fst w)))
theorem writeAccept : ∀ a0, Statement (.writeAccept a0) := by
  intro a0 c h; cases h
theorem iuReadBack : ∀ a0 a1 a2, Statement (.iuReadBack a0 a1 a2) := by
  intro a0 a1 a2 c h; cases h
theorem journalRecordDurable : Statement .journalRecordDurable := by intro c h; cases h
theorem abort : ∀ a0 a1 a2, Statement (.abort a0 a1 a2) := by
  intro a0 a1 a2 c h w; cases h; exact (fst (fst w))
theorem identify : ∀ a0 a1 a2, Statement (.identify a0 a1 a2) := by
  intro a0 a1 a2 c h w; cases h; exact (fst (fst w))
theorem getLogPage : ∀ a0 a1 a2 a3, Statement (.getLogPage a0 a1 a2 a3) := by
  intro a0 a1 a2 a3 c h w; cases h; exact (fst (fst (fst (fst w))))
theorem getFeatures : ∀ a0 a1 a2, Statement (.getFeatures a0 a1 a2) := by
  intro a0 a1 a2 c h w; cases h; exact (fst (fst w))
theorem mediaEarlyWarning : ∀ a0 a1 a2, Statement (.mediaEarlyWarning a0 a1 a2) := by
  intro a0 a1 a2 c h w; cases h; exact w
theorem patrolPeriod : ∀ a0 a1 a2, Statement (.patrolPeriod a0 a1 a2) := by
  intro a0 a1 a2 c h w; cases h; exact w
theorem portMode : ∀ a0 a1 a2, Statement (.portMode a0 a1 a2) := by
  intro a0 a1 a2 c h w; cases h; exact w
theorem encryptNewNamespaces : ∀ a0 a1 a2, Statement (.encryptNewNamespaces a0 a1 a2) := by
  intro a0 a1 a2 c h w; cases h; exact w
theorem powerCap : ∀ a0 a1 a2, Statement (.powerCap a0 a1 a2) := by
  intro a0 a1 a2 c h w; cases h; exact w
theorem powerManagement : ∀ a0 a1 a2, Statement (.powerManagement a0 a1 a2) := by
  intro a0 a1 a2 c h w; cases h; exact (fst w)
theorem autonomousPowerStateTransition : ∀ a0 a1 a2, Statement (.autonomousPowerStateTransition a0 a1 a2) := by
  intro a0 a1 a2 c h w; cases h; exact (fst (fst (fst w)))
theorem hostMemoryBuffer : ∀ a0 a1 a2, Statement (.hostMemoryBuffer a0 a1 a2) := by
  intro a0 a1 a2 c h w; cases h; exact (fst w)
theorem powerStateIdleEntry : ∀ a0, Statement (.powerStateIdleEntry a0) := by
  intro a0 c h; cases h
theorem formatNvm : ∀ a0 a1 a2, Statement (.formatNvm a0 a1 a2) := by
  intro a0 a1 a2 c h w; cases h; exact (fst (fst w))
theorem sanitize : ∀ a0 a1, Statement (.sanitize a0 a1) := by
  intro a0 a1 c h w; cases h; exact (fst w)
theorem namespaceManagement : ∀ a0 a1 a2 a3, Statement (.namespaceManagement a0 a1 a2 a3) := by
  intro a0 a1 a2 a3 c h w; cases h; exact (fst (fst (fst w)))
theorem namespaceAttachment : ∀ a0 a1 a2 a3, Statement (.namespaceAttachment a0 a1 a2 a3) := by
  intro a0 a1 a2 a3 c h w; cases h; exact (fst (fst (fst w)))
theorem createIoQueue : ∀ a0 a1 a2 a3 a4 a5, Statement (.createIoQueue a0 a1 a2 a3 a4 a5) := by
  intro a0 a1 a2 a3 a4 a5 c h w; cases h; exact (fst (fst (fst (fst (fst w)))))
theorem asynchronousEventRequest : ∀ a0, Statement (.asynchronousEventRequest a0) := by
  intro a0 c h w; cases h; exact w
theorem firmwareImageDownload : ∀ a0 a1 a2, Statement (.firmwareImageDownload a0 a1 a2) := by
  intro a0 a1 a2 c h w; cases h; exact (fst (fst w))
theorem firmwareCommit : ∀ a0 a1 a2, Statement (.firmwareCommit a0 a1 a2) := by
  intro a0 a1 a2 c h w; cases h; exact (fst (fst w))
theorem loadProgram : ∀ a0 a1 a2 a3, Statement (.loadProgram a0 a1 a2 a3) := by
  intro a0 a1 a2 a3 c h w; cases h; exact (fst (fst (fst w)))
theorem unloadProgram : ∀ a0 a1, Statement (.unloadProgram a0 a1) := by
  intro a0 a1 c h w; cases h; exact (fst w)
theorem programActivationManagement : ∀ a0 a1 a2, Statement (.programActivationManagement a0 a1 a2) := by
  intro a0 a1 a2 c h w; cases h; exact (fst w)
theorem executeProgram : ∀ a0 a1 a2, Statement (.executeProgram a0 a1 a2) := by
  intro a0 a1 a2 c h w; cases h; exact (fst (fst w))
theorem executeScan : ∀ a0 a1 a2 a3 a4, Statement (.executeScan a0 a1 a2 a3 a4) := by
  intro a0 a1 a2 a3 a4 c h w; cases h; exact (fst (fst (fst w)))
theorem memoryRead : ∀ a0 a1 a2, Statement (.memoryRead a0 a1 a2) := by
  intro a0 a1 a2 c h w; cases h; exact (fst (fst (fst w)))
theorem memoryWrite : ∀ a0 a1 a2, Statement (.memoryWrite a0 a1 a2) := by
  intro a0 a1 a2 c h w; cases h; exact (fst (fst (fst (fst w))))
theorem memoryCopy : ∀ a0 a1 a2 a3 a4 a5, Statement (.memoryCopy a0 a1 a2 a3 a4 a5) := by
  intro a0 a1 a2 a3 a4 a5 c h w; cases h; exact (fst (fst (fst (fst w))))
theorem extentCreate : ∀ a0 a1, Statement (.extentCreate a0 a1) := by
  intro a0 a1 c h w; cases h; exact w
theorem extentFree : ∀ a0 a1 a2, Statement (.extentFree a0 a1 a2) := by
  intro a0 a1 a2 c h w; cases h; exact w
theorem extentFreeEffect : ∀ a0 a1, Statement (.extentFreeEffect a0 a1) := by
  intro a0 a1 c h; cases h
theorem extentPin : ∀ a0 a1 a2 a3, Statement (.extentPin a0 a1 a2 a3) := by
  intro a0 a1 a2 a3 c h w; cases h; exact w
theorem extentUnpin : ∀ a0 a1 a2, Statement (.extentUnpin a0 a1 a2) := by
  intro a0 a1 a2 c h w; cases h; exact w
theorem extentPlace : ∀ a0 a1 a2 a3, Statement (.extentPlace a0 a1 a2 a3) := by
  intro a0 a1 a2 a3 c h w; cases h; exact w
theorem tensorSpaceConfigure : ∀ a0 a1, Statement (.tensorSpaceConfigure a0 a1) := by
  intro a0 a1 c h w; cases h; exact w
theorem quotaSet : ∀ a0 a1 a2, Statement (.quotaSet a0 a1 a2) := by
  intro a0 a1 a2 c h w; cases h; exact w
theorem hoistListAttach : ∀ a0 a1 a2 a3, Statement (.hoistListAttach a0 a1 a2 a3) := by
  intro a0 a1 a2 a3 c h w; cases h; exact (fst w)
theorem directProgram : ∀ a0 a1 a2 a3 a4, Statement (.directProgram a0 a1 a2 a3 a4) := by
  intro a0 a1 a2 a3 a4 c h w; cases h; exact (fst w)
theorem directRead : ∀ a0 a1 a2 a3, Statement (.directRead a0 a1 a2 a3) := by
  intro a0 a1 a2 a3 c h w; cases h; exact w
theorem directErase : ∀ a0 a1 a2, Statement (.directErase a0 a1 a2) := by
  intro a0 a1 a2 c h w; cases h; exact w
theorem directMediaReserve : ∀ a0 a1, Statement (.directMediaReserve a0 a1) := by
  intro a0 a1 c h w; cases h; exact w
theorem fabricConfigure : ∀ a0 a1 a2, Statement (.fabricConfigure a0 a1 a2) := by
  intro a0 a1 a2 c h w; cases h; exact w
theorem peerWindowAccept : ∀ a0 a1 a2 a3, Statement (.peerWindowAccept a0 a1 a2 a3) := by
  intro a0 a1 a2 a3 c h w; cases h; exact w
theorem peerWindowBind : ∀ a0 a1 a2 a3 a4 a5 a6, Statement (.peerWindowBind a0 a1 a2 a3 a4 a5 a6) := by
  intro a0 a1 a2 a3 a4 a5 a6 c h w; cases h; exact w
theorem peerWindowRelease : ∀ a0 a1 a2, Statement (.peerWindowRelease a0 a1 a2) := by
  intro a0 a1 a2 c h w; cases h; exact w
theorem peerCopy : ∀ a0 a1 a2 a3 a4 a5 a6, Statement (.peerCopy a0 a1 a2 a3 a4 a5 a6) := by
  intro a0 a1 a2 a3 a4 a5 a6 c h w; cases h; exact w
theorem checkpointReserve : ∀ a0 a1, Statement (.checkpointReserve a0 a1) := by
  intro a0 a1 c h w; cases h; exact w
theorem checkpointConfigure : ∀ a0 a1 a2 a3 a4 a5, Statement (.checkpointConfigure a0 a1 a2 a3 a4 a5) := by
  intro a0 a1 a2 a3 a4 a5 c h w; cases h; exact (fst w)
theorem checkpointCut : ∀ a0 a1 a2 a3, Statement (.checkpointCut a0 a1 a2 a3) := by
  intro a0 a1 a2 a3 c h w; cases h; exact w
theorem checkpointWait : ∀ a0 a1 a2, Statement (.checkpointWait a0 a1 a2) := by
  intro a0 a1 a2 c h w; cases h; exact w
theorem checkpointRestore : ∀ a0 a1 a2 a3, Statement (.checkpointRestore a0 a1 a2 a3) := by
  intro a0 a1 a2 a3 c h w; cases h; exact w
theorem takeover : ∀ a0 a1, Statement (.takeover a0 a1) := by
  intro a0 a1 c h w; cases h; exact w
theorem interruptionReport : ∀ a0, Statement (.interruptionReport a0) := by
  intro a0 c h w; cases h; exact w
theorem provisionBegin : ∀ a0, Statement (.provisionBegin a0) := by
  intro a0 c h w; cases h; exact w
theorem certificateInstall : ∀ a0 a1 a2 a3, Statement (.certificateInstall a0 a1 a2 a3) := by
  intro a0 a1 a2 a3 c h w; cases h; exact (fst w)
theorem lifeCycleNonce : ∀ a0, Statement (.lifeCycleNonce a0) := by
  intro a0 c h w; cases h; exact w
theorem lifeCycleTransition : ∀ a0 a1 a2, Statement (.lifeCycleTransition a0 a1 a2) := by
  intro a0 a1 a2 c h w; cases h; exact (fst w)
theorem programSigningConfigure : ∀ a0 a1 a2, Statement (.programSigningConfigure a0 a1 a2) := by
  intro a0 a1 a2 c h w; cases h; exact (fst w)
theorem readNvmeMiDataStructure : ∀ a0, Statement (.readNvmeMiDataStructure a0) := by
  intro a0 c h; cases h
theorem subsystemHealthStatusPoll : Statement .subsystemHealthStatusPoll := by intro c h; cases h
theorem controllerHealthStatusPoll : ∀ a0, Statement (.controllerHealthStatusPoll a0) := by
  intro a0 c h; cases h
theorem configurationGet : ∀ a0, Statement (.configurationGet a0) := by
  intro a0 c h; cases h
theorem configurationSet : ∀ a0 a1, Statement (.configurationSet a0 a1) := by
  intro a0 a1 c h; cases h
theorem vpdRead : ∀ a0 a1, Statement (.vpdRead a0 a1) := by
  intro a0 a1 c h; cases h
theorem vpdWrite : ∀ a0 a1, Statement (.vpdWrite a0 a1) := by
  intro a0 a1 c h; cases h
theorem getVersion : ∀ a0, Statement (.getVersion a0) := by
  intro a0 c h; cases h
theorem getCertificate : ∀ a0 a1 a2 a3, Statement (.getCertificate a0 a1 a2 a3) := by
  intro a0 a1 a2 a3 c h; cases h
theorem challenge : ∀ a0 a1 a2, Statement (.challenge a0 a1 a2) := by
  intro a0 a1 a2 c h; cases h
theorem getMeasurements : ∀ a0 a1 a2, Statement (.getMeasurements a0 a1 a2) := by
  intro a0 a1 a2 c h; cases h
theorem keyExchange : ∀ a0 a1 a2, Statement (.keyExchange a0 a1 a2) := by
  intro a0 a1 a2 c h; cases h
theorem heartbeat : ∀ a0 a1, Statement (.heartbeat a0 a1) := by
  intro a0 a1 c h; cases h
theorem programKeySet : ∀ a0 a1 a2 a3, Statement (.programKeySet a0 a1 a2 a3) := by
  intro a0 a1 a2 a3 c h; cases h
theorem sqDoorbell : ∀ a0 a1 a2, Statement (.sqDoorbell a0 a1 a2) := by
  intro a0 a1 a2 c h; cases h
theorem controllerEnable : ∀ a0 a1, Statement (.controllerEnable a0 a1) := by
  intro a0 a1 c h; cases h
theorem controllerReady : ∀ a0, Statement (.controllerReady a0) := by
  intro a0 c h; cases h
theorem controllerDisable : ∀ a0, Statement (.controllerDisable a0) := by
  intro a0 c h; cases h
theorem nvmSubsystemReset : ∀ a0, Statement (.nvmSubsystemReset a0) := by
  intro a0 c h; cases h
theorem functionLevelReset : ∀ a0, Statement (.functionLevelReset a0) := by
  intro a0 c h; cases h
theorem registerWrite : ∀ a0 a1 a2 a3, Statement (.registerWrite a0 a1 a2 a3) := by
  intro a0 a1 a2 a3 c h; cases h
theorem windowAccess : ∀ a0 a1 a2 a3 a4, Statement (.windowAccess a0 a1 a2 a3 a4) := by
  intro a0 a1 a2 a3 a4 c h; cases h
theorem kclkLowRead : ∀ a0 a1, Statement (.kclkLowRead a0 a1) := by
  intro a0 a1 c h; cases h
theorem scrubPassStart : ∀ a0 a1, Statement (.scrubPassStart a0 a1) := by
  intro a0 a1 c h; cases h
theorem scrubPassDone : Statement .scrubPassDone := by intro c h; cases h
theorem haulEngineErrorClear : ∀ a0 a1 a2, Statement (.haulEngineErrorClear a0 a1 a2) := by
  intro a0 a1 a2 c h; cases h
theorem haulEngineReArm : ∀ a0 a1 a2, Statement (.haulEngineReArm a0 a1 a2) := by
  intro a0 a1 a2 c h; cases h
theorem lineDescriptorWrite : ∀ a0 a1 a2 a3, Statement (.lineDescriptorWrite a0 a1 a2 a3) := by
  intro a0 a1 a2 a3 c h; cases h
theorem extentSnapshotSelect : ∀ a0 a1 a2, Statement (.extentSnapshotSelect a0 a1 a2) := by
  intro a0 a1 a2 c h; cases h
theorem portDisable : ∀ a0 a1, Statement (.portDisable a0 a1) := by
  intro a0 a1 c h; cases h
theorem portEnable : ∀ a0 a1, Statement (.portEnable a0 a1) := by
  intro a0 a1 c h; cases h
theorem eccTestArm : ∀ a0 a1, Statement (.eccTestArm a0 a1) := by
  intro a0 a1 c h; cases h
theorem monitorConfigure : ∀ a0 a1 a2 a3, Statement (.monitorConfigure a0 a1 a2 a3) := by
  intro a0 a1 a2 a3 c h; cases h
theorem maxStepWrite : ∀ a0 a1 a2, Statement (.maxStepWrite a0 a1 a2) := by
  intro a0 a1 a2 c h; cases h
theorem perstAssert : ∀ a0, Statement (.perstAssert a0) := by
  intro a0 c h; cases h
theorem perstDeassert : ∀ a0 a1 a2, Statement (.perstDeassert a0 a1 a2) := by
  intro a0 a1 a2 c h; cases h
theorem attnPress : Statement .attnPress := by intro c h; cases h
theorem attentionBlinkExpire : Statement .attentionBlinkExpire := by intro c h; cases h
theorem pwrdisAssert : Statement .pwrdisAssert := by intro c h; cases h
theorem pwrdisRelease : Statement .pwrdisRelease := by intro c h; cases h
theorem sidebandStuck : ∀ a0, Statement (.sidebandStuck a0) := by
  intro a0 c h; cases h
theorem mainSwitchClose : Statement .mainSwitchClose := by intro c h; cases h
theorem undervoltage : ∀ a0, Statement (.undervoltage a0) := by
  intro a0 c h; cases h
theorem overvoltage : ∀ a0, Statement (.overvoltage a0) := by
  intro a0 c h; cases h
theorem inputRecovered : Statement .inputRecovered := by intro c h; cases h
theorem powerLoss : Statement .powerLoss := by intro c h; cases h
theorem watchdogExpiry : Statement .watchdogExpiry := by intro c h; cases h
theorem bootChain : Statement .bootChain := by intro c h; cases h
theorem regionReset : ∀ a0 a1 a2 a3 a4, Statement (.regionReset a0 a1 a2 a3 a4) := by
  intro a0 a1 a2 a3 a4 c h; cases h
theorem faceDieReset : ∀ a0 a1 a2 a3 a4, Statement (.faceDieReset a0 a1 a2 a3 a4) := by
  intro a0 a1 a2 a3 a4 c h; cases h
theorem moduleReset : ∀ a0 a1, Statement (.moduleReset a0 a1) := by
  intro a0 a1 c h; cases h
theorem coldReset : ∀ a0, Statement (.coldReset a0) := by
  intro a0 c h; cases h
theorem resetComplete : ∀ a0 a1, Statement (.resetComplete a0 a1) := by
  intro a0 a1 c h; cases h
theorem mount : ∀ a0, Statement (.mount a0) := by
  intro a0 c h; cases h
theorem dramErasureModeEnter : ∀ a0 a1, Statement (.dramErasureModeEnter a0 a1) := by
  intro a0 a1 c h; cases h
theorem secondDieErasureCriteria : ∀ a0 a1, Statement (.secondDieErasureCriteria a0 a1) := by
  intro a0 a1 c h; cases h
theorem scrubRead : ∀ a0 a1 a2 a3 a4 a5, Statement (.scrubRead a0 a1 a2 a3 a4 a5) := by
  intro a0 a1 a2 a3 a4 a5 c h; cases h
theorem dieFabricError : ∀ a0, Statement (.dieFabricError a0) := by
  intro a0 c h; cases h
theorem sequencerStep : ∀ a0, Statement (.sequencerStep a0) := by
  intro a0 c h; cases h
theorem endComplete : ∀ a0, Statement (.endComplete a0) := by
  intro a0 c h; cases h
theorem barrierRelease : ∀ a0 a1, Statement (.barrierRelease a0 a1) := by
  intro a0 a1 c h; cases h
theorem waitLimitExpire : ∀ a0, Statement (.waitLimitExpire a0) := by
  intro a0 c h; cases h
theorem arrayLoad : ∀ a0 a1, Statement (.arrayLoad a0 a1) := by
  intro a0 a1 c h; cases h
theorem loadLatch : ∀ a0 a1 a2, Statement (.loadLatch a0 a1 a2) := by
  intro a0 a1 a2 c h; cases h
theorem arrayStream : ∀ a0 a1 a2, Statement (.arrayStream a0 a1 a2) := by
  intro a0 a1 a2 c h; cases h
theorem streamEnd : ∀ a0 a1, Statement (.streamEnd a0 a1) := by
  intro a0 a1 c h; cases h
theorem arrayDrain : ∀ a0 a1, Statement (.arrayDrain a0 a1) := by
  intro a0 a1 c h; cases h
theorem drainEnd : ∀ a0 a1, Statement (.drainEnd a0 a1) := by
  intro a0 a1 c h; cases h
theorem gateFire : ∀ a0, Statement (.gateFire a0) := by
  intro a0 c h; cases h
theorem ld : ∀ a0, Statement (.ld a0) := by
  intro a0 c h; cases h
theorem st : ∀ a0, Statement (.st a0) := by
  intro a0 c h; cases h
theorem add : ∀ a0, Statement (.add a0) := by
  intro a0 c h; cases h
theorem sub : ∀ a0, Statement (.sub a0) := by
  intro a0 c h; cases h
theorem mul : ∀ a0, Statement (.mul a0) := by
  intro a0 c h; cases h
theorem fma : ∀ a0, Statement (.fma a0) := by
  intro a0 c h; cases h
theorem max : ∀ a0, Statement (.max a0) := by
  intro a0 c h; cases h
theorem min : ∀ a0, Statement (.min a0) := by
  intro a0 c h; cases h
theorem cmplt : ∀ a0, Statement (.cmplt a0) := by
  intro a0 c h; cases h
theorem sel : ∀ a0, Statement (.sel a0) := by
  intro a0 c h; cases h
theorem div : ∀ a0, Statement (.div a0) := by
  intro a0 c h; cases h
theorem sqrt : ∀ a0, Statement (.sqrt a0) := by
  intro a0 c h; cases h
theorem rsqrt : ∀ a0, Statement (.rsqrt a0) := by
  intro a0 c h; cases h
theorem exp : ∀ a0, Statement (.exp a0) := by
  intro a0 c h; cases h
theorem cvt : ∀ a0, Statement (.cvt a0) := by
  intro a0 c h; cases h
theorem rsum : ∀ a0, Statement (.rsum a0) := by
  intro a0 c h; cases h
theorem rmax : ∀ a0, Statement (.rmax a0) := by
  intro a0 c h; cases h
theorem rmin : ∀ a0, Statement (.rmin a0) := by
  intro a0 c h; cases h
theorem quant : ∀ a0, Statement (.quant a0) := by
  intro a0 c h; cases h
theorem encode : ∀ a0, Statement (.encode a0) := by
  intro a0 c h; cases h
theorem routePost : ∀ a0, Statement (.routePost a0) := by
  intro a0 c h; cases h
theorem crSet : ∀ a0, Statement (.crSet a0) := by
  intro a0 c h; cases h
theorem nop : ∀ a0, Statement (.nop a0) := by
  intro a0 c h; cases h
theorem remoteRouteDeliver : ∀ a0, Statement (.remoteRouteDeliver a0) := by
  intro a0 c h; cases h
theorem walkerSearch : ∀ a0, Statement (.walkerSearch a0) := by
  intro a0 c h; cases h
theorem walkerExpansion : ∀ a0 a1, Statement (.walkerExpansion a0 a1) := by
  intro a0 a1 c h; cases h
theorem walkerPageReadDone : ∀ a0 a1 a2, Statement (.walkerPageReadDone a0 a1 a2) := by
  intro a0 a1 a2 c h; cases h
theorem burstGrant : ∀ a0, Statement (.burstGrant a0) := by
  intro a0 c h; cases h
theorem requestComplete : ∀ a0 a1, Statement (.requestComplete a0 a1) := by
  intro a0 a1 c h; cases h
theorem mapEpochPin : ∀ a0, Statement (.mapEpochPin a0) := by
  intro a0 c h; cases h
theorem sievePage : ∀ a0 a1 a2, Statement (.sievePage a0 a1 a2) := by
  intro a0 a1 a2 c h; cases h
theorem scanComplete : ∀ a0, Statement (.scanComplete a0) := by
  intro a0 c h; cases h
theorem freePoolCriticalFloor : Statement .freePoolCriticalFloor := by intro c h; cases h
theorem moveStart : ∀ a0, Statement (.moveStart a0) := by
  intro a0 c h; cases h
theorem spaceTileLanded : ∀ a0 a1 a2, Statement (.spaceTileLanded a0 a1 a2) := by
  intro a0 a1 a2 c h; cases h
theorem hoistEngineReArm : ∀ a0, Statement (.hoistEngineReArm a0) := by
  intro a0 c h; cases h
theorem firstTouchCopyDone : ∀ a0 a1 a2, Statement (.firstTouchCopyDone a0 a1 a2) := by
  intro a0 a1 a2 c h; cases h
theorem flashReadComplete : ∀ a0 a1 a2, Statement (.flashReadComplete a0 a1 a2) := by
  intro a0 a1 a2 c h; cases h
theorem readCountRefresh : ∀ a0, Statement (.readCountRefresh a0) := by
  intro a0 c h; cases h
theorem flashEraseComplete : ∀ a0, Statement (.flashEraseComplete a0) := by
  intro a0 c h; cases h
theorem fold : ∀ a0, Statement (.fold a0) := by
  intro a0 c h; cases h
theorem garbageCollection : Statement .garbageCollection := by intro c h; cases h
theorem gcRelocate : ∀ a0, Statement (.gcRelocate a0) := by
  intro a0 c h; cases h
theorem writeThrottle : Statement .writeThrottle := by intro c h; cases h
theorem patrolRead : ∀ a0 a1 a2, Statement (.patrolRead a0 a1 a2) := by
  intro a0 a1 a2 c h; cases h
theorem dieRetire : ∀ a0 a1, Statement (.dieRetire a0 a1) := by
  intro a0 a1 c h; cases h
theorem stackRetire : ∀ a0, Statement (.stackRetire a0) := by
  intro a0 c h; cases h
theorem rebuildComplete : ∀ a0, Statement (.rebuildComplete a0) := by
  intro a0 c h; cases h
theorem readOnlyEndOfLife : Statement .readOnlyEndOfLife := by intro c h; cases h
theorem portTrain : ∀ a0 a1 a2 a3, Statement (.portTrain a0 a1 a2 a3) := by
  intro a0 a1 a2 a3 c h; cases h
theorem exchange : ∀ a0 a1 a2 a3, Statement (.exchange a0 a1 a2 a3) := by
  intro a0 a1 a2 a3 c h; cases h
theorem retrain : ∀ a0 a1, Statement (.retrain a0 a1) := by
  intro a0 a1 c h; cases h
theorem flitReceive : ∀ a0 a1 a2 a3, Statement (.flitReceive a0 a1 a2 a3) := by
  intro a0 a1 a2 a3 c h; cases h
theorem replayTimeout : ∀ a0, Statement (.replayTimeout a0) := by
  intro a0 c h; cases h
theorem data : ∀ a0 a1 a2 a3 a4, Statement (.data a0 a1 a2 a3 a4) := by
  intro a0 a1 a2 a3 a4 c h; cases h
theorem ack : ∀ a0 a1 a2 a3, Statement (.ack a0 a1 a2 a3) := by
  intro a0 a1 a2 a3 c h; cases h
theorem event : ∀ a0 a1 a2 a3, Statement (.event a0 a1 a2 a3) := by
  intro a0 a1 a2 a3 c h; cases h
theorem state : ∀ a0 a1 a2 a3, Statement (.state a0 a1 a2 a3) := by
  intro a0 a1 a2 a3 c h; cases h
theorem resync : ∀ a0 a1, Statement (.resync a0 a1) := by
  intro a0 a1 c h; cases h
theorem retransmitTimeout : ∀ a0, Statement (.retransmitTimeout a0) := by
  intro a0 c h; cases h
theorem alternatePortSwitch : ∀ a0, Statement (.alternatePortSwitch a0) := by
  intro a0 c h; cases h
theorem portDownPropose : ∀ a0, Statement (.portDownPropose a0) := by
  intro a0 c h; cases h
theorem portUpPropose : ∀ a0, Statement (.portUpPropose a0) := by
  intro a0 c h; cases h
theorem epochEnter : Statement .epochEnter := by intro c h; cases h
theorem routeTimeout : ∀ a0, Statement (.routeTimeout a0) := by
  intro a0 c h; cases h
theorem cutDue : Statement .cutDue := by intro c h; cases h
theorem cutProtect : Statement .cutProtect := by intro c h; cases h
theorem flashCheckpointCommit : Statement .flashCheckpointCommit := by intro c h; cases h
theorem takeoverCopyDone : ∀ a0 a1 a2 a3, Statement (.takeoverCopyDone a0 a1 a2 a3) := by
  intro a0 a1 a2 a3 c h; cases h
theorem managementPeriod : ∀ a0, Statement (.managementPeriod a0) := by
  intro a0 c h; cases h
theorem uptimeWrite : Statement .uptimeWrite := by intro c h; cases h
theorem fastLimiterEngage : Statement .fastLimiterEngage := by intro c h; cases h
theorem thermalShutdown : ∀ a0, Statement (.thermalShutdown a0) := by
  intro a0 c h; cases h
theorem thermalShutdownExit : Statement .thermalShutdownExit := by intro c h; cases h
theorem regionSleepEnter : ∀ a0, Statement (.regionSleepEnter a0) := by
  intro a0 c h; cases h
theorem regionWake : ∀ a0, Statement (.regionWake a0) := by
  intro a0 c h; cases h
theorem wakeComplete : ∀ a0, Statement (.wakeComplete a0) := by
  intro a0 c h; cases h
theorem assayWindowClose : ∀ a0, Statement (.assayWindowClose a0) := by
  intro a0 c h; cases h
theorem attnRelease : Statement .attnRelease := by intro c h; cases h
theorem seamLinkRetrain : ∀ a0, Statement (.seamLinkRetrain a0) := by
  intro a0 c h; cases h
theorem stripeParityProgrammed : ∀ a0, Statement (.stripeParityProgrammed a0) := by
  intro a0 c h; cases h
theorem flashStreamPageReadBack : ∀ a0, Statement (.flashStreamPageReadBack a0) := by
  intro a0 c h; cases h

end Sys2Proof.Laws.OwnCommand
end

