-- ==== Sys2Proof/Tests/Slice0.lean ====
section
/-! SUPPORT. Small tests of the model against the spec's own examples, the refusal of ill-formed commands, and for every
hypothesis of a statement a state that meets it. -/

open Sys2Proof Sys2Proof.Machine

namespace Sys2Proof.Tests

/-- A ready controller with one I/O queue pair of four entries. -/
def ctl0 : Controller :=
  { en := true, rdy := true, sqs := [(0, {}), (1, { entries := 4, cq := 1 })], cqs := [(0, {}), (1, { entries := 4 })] }

/-- A ready controller of function 0 on a deployed module, nothing else changed since reset. -/
def ready : State :=
  { State.reset with
    resets := []
    host := { controllers := [(0, ctl0)] }
    sec := { lcRecord := [1, 2], booted := true } }

/-- A VF of function 1 that is ready as well. -/
def readyVf : State :=
  { ready with host := { controllers := [(0, ctl0), (1, ctl0)] } }

/-- The issuer: function 0, queue 1, command 7. -/
def c0 : Src := { fn := 0, sq := 1, cid := 7 }
/-- An issuer on a VF. -/
def c1 : Src := { fn := 1, sq := 1, cid := 3 }

/-- A deployed module with a ready controller and namespace 1 of 1,024 blocks attached to it, mounted. -/
def nvm : State :=
  { ready with
    host := { ready.host with namespaces := [(1, { active := true, blocks := 1024, attached := [0] })] }
    flash := { mounted := true } }

/-- A part of one whole IU from block 0, in a given stage. -/
def part0 (stage : Nat) : Part :=
  { id := 0, op := 0, src := c0, nsid := 1, slba := 0, blocks := 4, data := [(0, 0x5A)], stage := stage
    ius := [(0, 0, 0)] }

/-- A write of part 0 under way. -/
def writing (stage : Nat) : State :=
  { nvm with
    host := { nvm.host with ops := [{ id := 0, src := c0, kind := .write [0] .success }], nextOp := 1 }
    flash := { nvm.flash with parts := [part0 stage], nextPart := 1 } }

/-- A bench image of one bench with one step word of zeros (Tables 5.8 and 5.9). -/
def image1 : Buf :=
  { len := 416, bytes := [(0, 2), (1, 1), (2, 1), (8, 0xA0), (9, 1), (0x146, 1), (0x150, 0x80), (0x151, 1)] }

/-- That program loaded at index 0 of function 0, on bench 0. -/
def loaded : State :=
  { nvm with
    host := { nvm.host with programs := [(0, { loaded := true, kind := 2, image := image1
                                               binds := [{ logical := 0, bench := 0, logicalRegion := 0 }] })] }
    benches := [(0, { bind := some { stepCount := 1 }, seq := { st := .bound }, steps := [(0, 0)] })] }

/-- A predicate image of one term that always holds (Table 2.4), compiled for schema 0. -/
def always : Buf := { len := 20, bytes := [(0, 1), (1, 1), (2, 1), (16, 0x0F), (17, 0x40)] }
/-- A scan descriptor over one page of namespace 1 into a host buffer of 4,096 bytes (Table 2.7). -/
def scanDesc : Buf :=
  { len := 128, bytes := [(0, 1), (4, 1), (0x10, 4), (0x39, 0x10)] }
/-- The predicate loaded at index 1. -/
def scanReady : State :=
  { nvm with host := { nvm.host with programs := [(1, { loaded := true, kind := 1, image := always })] } }
/-- A scan of one page that waits for its pin, or holds it. -/
def scan1 : Scan := { id := 0, op := 0, fn := 0, prog := 1, nsid := 1, lbaCount := 4, outputSize := 4096 }
def scanning (x : Scan) : State :=
  { scanReady with
    host := { scanReady.host with ops := [{ id := 0, src := c0, kind := .scan 0 }], nextOp := 1 }
    scans := [x]
    flash := { scanReady.flash with pinWait := if x.pinned then [] else [0]
                                    pins := if x.pinned then [{ scan := 0, nsid := 1, seq := 0 }] else [] } }
/-- The scan with its page to read. -/
def pinned1 : Scan := { scan1 with pinned := true, pages := [{ lba := 0, stack := 0 }] }
/-- A pinned scan and a block that it keeps from being erased. -/
def floored : State :=
  let s := scanning pinned1
  { s with flash := { s.flash with blocks := [(4000, { st := 0, freedAt := 1 })] } }
/-- A page that is not zero and not a record page. -/
def badPage : State :=
  let s := scanning pinned1
  { s with flash := { s.flash with map := [(2 ^ 40, 1)], media := [(0, [(0, 1)])] } }

/-- An extent of two tiles in slot 3 of face die 1, in T2 with a home in T3, owned by function 0. -/
def ext1 : Extent := { st := 1, length := 2, copyTier := 2, homeTier := 3, owner := 0 }
/-- Its base address. -/
def base1 : Nat := extentBase 1 3
/-- That extent on the deployed module. -/
def held1 (e : Extent) : State := { nvm with ts := { nvm.ts with dies := [(1, { slots := [(3, e)] })] } }
/-- One byte of data. -/
def byte1 : Buf := { len := 1, bytes := [(0, 0x77)] }

/-- The binding of that bench, and the command for which it runs. -/
def bind1 : Binding := { stepCount := 2 }
def run1 : Op := { id := 0, src := c0, kind := .execute 0 [] true }
/-- The program running on bench 0 with the step word `w` at pc 0 and the bench as `f` makes it. -/
def stepping (w : BitVec 256) (f : Bench → Bench) : State :=
  { loaded with
    host := { loaded.host with
      ops := [run1], nextOp := 1
      programs := [(0, { loaded := true, kind := 2, image := image1, running := some 0
                         barrierMasks := [1], binds := [{ logical := 0, bench := 0, logicalRegion := 0 }] })] }
    regions := [(0, { st := .active })]
    benches := [(0, f { bind := some bind1, seq := { st := .running }, steps := tset [] 0 w })] }

/-- Bench 0 with a kernel of the one word `w` running on T0 from address 0, its last word. -/
def vector1 (w : Nat) (f : Bench → Bench) : State :=
  stepping 0 fun x => f { x with kernel := [(0, BitVec.ofNat 64 (w + 2 ^ 31))], vec := { running := true, space := 1 } }
/-- A weight tile header of format I8S with one row and one column at address 0 (Table 3.3). -/
def header1 : Mem :=
  [(0, 0xDE), (1, 0xC0), (2, 0x1E), (3, 0x71), (4, 4), (5, 1), (6, 1), (8, 1)]

/-- Bench 0 with array 1 as given and T0 contents. -/
def array1 (x : Arr) (m : Mem) : State := stepping 0 fun y => { y with arrays := [(1, x)], t0 := m }
/-- A tile with one live row. -/
def tile1 : TileRegs := { format := 4, blockPresent := 1, scales := [] }
/-- An activation tile of one I8 row at address 0x2000 (Tables 4.2 and 3.4). -/
def act1 : Mem :=
  [(0x2000, 0xED), (0x2001, 0x5E), (0x2002, 0x71), (0x2003, 0xAC), (0x2004, 2), (0x2005, 1), (0x2006, 1),
   (0x2009, 1), (0x2105, 2)]

/-- A search descriptor at address 0 for an exhaustive search of one query over the lode in extent 3 (Table 10.6). -/
def descriptor1 : Mem :=
  [(0, 4), (1, 1), (2, 1), (3, 2), (4, 1), (6, 1), (0x0B, 0x80), (0x0C, 1), (0x0D, 0x80), (0x10, 1), (0x18, 9), (0x1E, 1), (0x21, 0x10),
   (0x25, 0x20)]
/-- The header of a lode of two nodes of 8 dimensions, vectors and pages in extents 4 and 5 (Table 10.2). -/
def lode1 : Mem :=
  [(0, 0xA7), (1, 0x5E), (2, 0xDE), (3, 0x10), (4, 1), (5, 1), (6, 1), (8, 1), (0x10, 2), (0x14, 8), (0x16, 1), (0x18, 12),
   (0x1A, 0x50), (0x1B, 5), (0x24, 2), (0x28, 1)]
def header2 : Mem :=
  ((lode1.putLe 0x100 8 (extentBase 1 3)).putLe 0x300 8 (extentBase 1 3))
/-- Bench 0 with its walker as given, T0 contents `m`, and extent 3 of face die 1 holding the lode. -/
def walk1 (w : Walker) (m : Mem) : State :=
  let s := stepping 0 fun x => { x with walker := w, t0 := m }
  { s with ts := { (held1 ext1).ts with mem := Mem.copyIn [] base1 header2 0 1024 } }
/-- Bench 0, its walker retired, at a step that launches a search. -/
def launching : State := stepping (BitVec.ofNat 256 (2 ^ 209)) fun x => { x with walker := { retired := true } }
/-- The running exhaustive search of that lode, with query 0 as given. -/
def search1 (q : Query) : Search :=
  { searchOf descriptor1 0 0 with header := header2, queries := [q] }
/-- The same on flash: a greedy search with a candidate, or a page read in flight. -/
def search2 : Search :=
  { search1 { q := [{ dist := 3, node := 1 }] } with
    exhaustive := false, header := (header2.put 0x28 2).put 0x2C 1, pageBufCount := 16, reading := [0] }

/-- Region 0 with request `q` of a line whose descriptor is `d`, its channel armed. -/
def hauling (d : BitVec 512) (index : Nat) (done : List Moved) : State :=
  { stepping 0 id with regions := [(0, { st := .active, haul := {
      lines := [(5, { desc := d })], nextOrder := 1, done := done
      reqs := [{ order := 0, line := 5, bench := 0, index := index, loopIdx := 0 }] } })] }
/-- A copy of 64 bytes from 0x40 to the last 64 bytes of T0 (Table 8.2). -/
def copyLine : BitVec 512 := 
  0xFF000000000000000000000000007FFFC0000000000000004000000001000000400000010100000001
/-- Two plain rows from address 0 into a tile at 0x10000. -/
def rowLine : BitVec 512 := 
  0xFF00000000000001080000000000010000000000000000000000000002000000000000010101000002

/-- The deployed module with region 5 awake, its haul engine as given. -/
def awake5 (h : Haul) : State := { ready with regions := [(5, { st := .active, haul := h })] }

/-- The deployed module with namespace 1 attached and encrypted, and one event waiting at function 0. -/
def encrypted1 : State :=
  { nvm with host := { nvm.host with namespaces := [(1, { active := true, blocks := 262144, attached := [0], encrypted := true })] } }
/-- Controller 1 enabled and not ready on a mounted module. -/
def enabling : State :=
  { nvm with host := { nvm.host with controllers := [(0, { en := true, rdy := true, aenQueue := [(0x50, 0xC3)], sqs := [(1, { entries := 4, cq := 1 })],
                                                            cqs := [(1, { entries := 4 })] }), (1, { en := true })] } }

/-- A factory-new module whose boot chain has run, with a controller of function 0 ready and a seed drawn. -/
def blank0 : State := { ready with sec := { booted := true, seedHeld := some 0, draws := 1 } }
/-- The same module after Certificate Install of slot 0, its seed wrapped, with a live session. -/
def owned : State :=
  { ready with sec := { lcRecord := [1], booted := true, seedCopies := [(0, 1), (0, 1)], chain0 := { len := 40, bytes := [] },
                        sessions := [{ id := 1, port := 0, owner := true, beat := 0 }], nextSession := 2 } }
/-- A commit is possible: bank 0 runs, and an image of sequence 1 is staged. -/
def staged1 : State := { ready with mgmt := { fwStaged := { len := 8192, bytes := [(8, 1)] } } }

/-- A configured module at position 0 of board 0 with port 0 as given, on the deployed module. -/
def meshed (p : Port) : State :=
  { nvm with fabric := { configured := true, coldResync := false, ports := [(0, p)] } }
/-- The same with an extent of face die 1 under an accept for coordinates 1. -/
def accepting : State :=
  { meshed { st := 5 } with
    ts := { (held1 ext1).ts with windows := [{ die := 1, slot := 3, accept := true, fn := 0, coord := 1 }] } }
/-- One message to coordinates 1 in the retransmit store that operation 4 waits for, of a kind. -/
def unacked (kind : MsgKind) (k : OpKind) : State :=
  { accepting with
    host := { nvm.host with ops := [{ id := 4, src := c0, kind := k }], nextOp := 5 }
    fabric := { accepting.fabric with
      store := [{ dst := 1, seq := 3, addr := 0, payload := byte1, op := some 4, kind := kind }] }
    ts := { accepting.ts with windows := [{ die := 1, slot := 3, accept := false, fn := 0, coord := 1 }] } }
/-- The flits of message 0 from coordinates 1 have arrived. -/
def arrived (m : Msg) (s : State) : State :=
  { s with fabric := { s.fabric with arrived := messageFlits m 1 0 } }

/-- A provisioned module with block 4,000 of role 3 that holds one page of `qlc` mode. -/
def direct4000 (qlc : Bool) : State :=
  { ready with
    sec := { lcRecord := [1], booted := true }
    flash := { blocks := [(4000, { role := 3, st := 0, qlc := qlc, nextPage := 4 })], media := [(4096000, [(0, 9)])] } }
/-- A mounted flash with one block and one page of it mapped. -/
def worn (b : Blk) : State :=
  { nvm with flash := { mounted := true, blocks := [(4000, b)], media := [(4096000, [(0, 9)])],
                        map := [(iuKey 1 0, 4096001)] } }
/-- The same with nothing mapped. -/
def drained (b : Blk) : State := { worn b with flash := { (worn b).flash with map := [] } }

/-- An attached set of the one extent of `held1`, saved, with the checkpoint logic as given. -/
def setOf1 (k : Ckpt) : State :=
  { held1 { ext1 with length := 1, pageDirty := [0] } with
    ckpt := { k with attached := true, setEntries := [{ addr := base1, cls := 1, length := 1 }] } }
/-- A cut of number 5 in its first steps, asked for by operation 2. -/
def cutting : State :=
  { setOf1 { phase := 1, cutNumber := 5, cutOp := some 2, cutWantFlash := true, holdFrom := 2 } with
    host := { nvm.host with ops := [{ id := 2, src := c0, kind := .cut 5 true }], nextOp := 3 } }
/-- The same cut taken by the module itself, with the partner in the live graph. -/
def cuttingLive : State :=
  { setOf1 { phase := 1, cutNumber := 5 } with fabric := { configured := true, coldResync := false } }

/-- A reset of the given scope and index under way on the deployed module, every region in RESET, with one completion
kept for its end. -/
def resetting (scope idx : Nat) (p : List (Completion × Nat)) : State :=
  { nvm with
    regions := (List.range 8).map fun r => (r, { st := .reset })
    resets := [{ scope := scope, idx := idx, entry := { kind := 5 }, posts := p }] }
/-- The module on standby power with PWRDIS as given. -/
def standby (x : Sideband) (out : Bool) : State :=
  { State.reset with resets := [], power := { on := false, outOfRange := out }, mgmt := { sideband := [(3, x)] } }

/-- The telemetry of the example of R426: F 290 W, D 70 W, S 96 W and H 45 W, every sensor cool. -/
def example426 : Telemetry :=
  { regionCw := List.replicate 8 3625, dramCw := 7000, seamCw := 9600, hoistCw := 4500, inputMv10 := 4800
    inputDw := 5410, temps := List.replicate 48 400, silentStages := [], restartedStages := [], identityReads := []
    traffic := [], fecSymbols := [], overrun := false }
/-- Eight regions awake at step 18 with the module in power state `ps`. -/
def awake8 (ps : Nat) : State :=
  { ready with
    host := { ready.host with powerState := ps }
    regions := (List.range 8).map fun r => (r, { st := .active, step := 18, sleptPeriod := false }) }
/-- Region 7 in a state of its own, and a monitor. -/
def dozing (g : Region) (m : Monitor) : State :=
  { ready with regions := [(7, g)], clk := { hoist := 5000, face0 := 5000, face1 := 5000 }
               mgmt := { monitors := [(63, m)] } }

/-- The 80-byte predicate image of the example at the end of chapter 2. -/
def predicateExample : Mem := Mem.ofBytes [
  0x01, 0x01, 0x04, 0x00, 0x06, 0x00, 0x00, 0x00, 0x07, 0x0B, 0x00, 0x00, 0x00, 0x00, 0x00, 0x00,
  0x01, 0x00, 0x00, 0x00, 0x04, 0x01, 0x01, 0x02, 0x0A, 0x42, 0x03, 0x00, 0x08, 0x43, 0x04, 0x05,
  0x17, 0x00, 0x00, 0x00, 0x00, 0x00, 0x00, 0x00, 0x05, 0x00, 0x00, 0x00, 0x00, 0x00, 0x00, 0x00,
  0x08, 0x00, 0x00, 0x00, 0x00, 0x00, 0x00, 0x00, 0x06, 0x00, 0x00, 0x00, 0x00, 0x00, 0x00, 0x00,
  0x64, 0x00, 0x00, 0x00, 0xC8, 0x00, 0x00, 0x00, 0x2C, 0x01, 0x00, 0x00, 0x90, 0x01, 0x00, 0x00]


/-- The hypotheses of EmptyQueueTicks: after reset, and on standby. -/
theorem witness_EmptyQueueTicks :
    (State.reset.pending = [] ∧ State.reset.power.on = true) ∧
    (let s : State := { State.reset with power := { on := false } }
     s.pending = [] ∧ s.power.on = false ∧ s.power.standby = true) := by decide
/-- The hypothesis of StepRunsFrontCommand. -/
theorem witness_StepRunsFrontCommand :
    ({ State.reset with pending := [.attnPress, .mount []] } : State).pending = .attnPress :: [.mount []] := by
  decide
/-- A host command, a controller that is not ready, one that is, and a class that BLANK does not permit. -/
theorem witness_HostCommandsAreGated :
    hostClass (.flush c0 1) = some (c0, .operational) ∧ (State.reset.ctl c0.fn).rdy = false ∧
      c0.sq ≠ 0 ∧ thas (enabling.ctl 1).sqs c0.sq = false := by decide
theorem witness_HostCommandsAreGated_lifeCycle :
    let s : State := { ready with sec := {} }
    hostClass (.flush c0 1) = some (c0, .operational) ∧ s.takes c0 = true ∧
      permits .operational s.lifeCycle = false := by decide
/-- Readable blocks, a marked block, and a buffered block in canonical form. -/
theorem witness_ReadsComplete :
    Pre.readable c0 1 0 4 nvm ∧ (let s : State := { nvm with flash := { nvm.flash with unreadable := [(1, 2)] } }
      Accepts c0 .operational s ∧ s.lbaCheck c0.fn 1 0 4 = .success ∧ s.anyMarked 1 0 4 = true) ∧
    nvm.lbaCheck c0.fn 1 1020 8 ≠ .success := by decide
theorem witness_ReadReturnsNewestOrMapped :
    (∀ p ∈ (writing 1).flash.parts, p.data.wf = true) ∧ (∀ e ∈ (writing 1).flash.media, e.2.wf = true) := by decide
/-- Writable blocks at both ends of the range of a part, and a module at read-only end of life. -/
theorem witness_WritesEnterBuffer :
    Pre.writable c0 1 1002 22 nvm ∧ Pre.writable c0 1 0 512 nvm ∧
    (∀ r ∈ [(0, 4), (8, 0)], r.1 + r.2 ≤ (nvm.ns 1).blocks) ∧ (∃ r ∈ [(0, 4), (8, 0)], 0 < r.2) ∧
    nvm.nsUsable c0.fn 1 = true ∧
    (let s : State := { nvm with flash := { nvm.flash with readOnly := true } }
     Accepts c0 .operational s ∧ s.lbaCheck c0.fn 1 0 4 = .success ∧ s.flash.readOnly = true) := by decide
/-- R264: 32 blocks that start inside an IU are one part of nine IUs; 64 blocks from 2064 are three parts. -/
theorem test_writePieces :
    ((writePieces 1002 32).map fun e => (iusOf e.1 e.2).length) = [9] ∧
      ((writePieces 2064 64).map fun e => (iusOf e.1 e.2).length) = [4, 8, 4] := by decide
/-- A part to accept, one to program, one that fails for the third time, a queued group of the flash layer's own and one
that ends a write. -/
theorem witness_WriteAccept :
    (writing 0).part 0 = some (part0 0) ∧ (writing 0).mayAccept (part0 0) = true := by decide
theorem witness_IuReadBack :
    (writing 1).part 0 = some (part0 1) ∧ (part0 1).stage = 1 ∧
      ((part0 1).ius.any fun x => x.1 == 0 && x.2.2 == 0) = true ∧
      ((writing 1).iuProgram (part0 1) 0).isSome = true ∧ ∀ x ∈ (part0 1).ius, x.2.1 < 2 := by decide
theorem witness_WriteFault :
    let p : Part := { part0 1 with ius := [(0, 2, 0)] }
    let s : State := { writing 1 with flash := { (writing 1).flash with parts := [p] } }
    (p.ius.any fun x => x.1 == 0 && x.2.2 == 0 && decide (2 ≤ x.2.1)) = true ∧ (s.iuProgram p 0).isSome = true ∧
      s.host.ops = [{ id := 0, src := c0, kind := .write [0] .success }] ∧ (s.ctl c0.fn).rdy = true := by decide
theorem witness_JournalRecordDurable :
    (writing 3).journalStack.isSome = true ∧ ((writing 3).ctl 0).rdy = true ∧
      (writing 3).flash.journalPages + 1 < ckptEvery ∧ JRec.plain (.write 1 0 4 [(0, 9)]) = true := by decide
/-- A flush with nothing to wait for, one that waits for a write, and an outstanding Flush to abort. -/
theorem witness_FlushAndAbort :
    (Accepts c0 .operational nvm ∧ nvm.nsUsable c0.fn 1 = true ∧ nvm.writesCovered c0.fn 1 = []) ∧
    (Accepts c0 .operational (writing 1) ∧ (writing 1).nsUsable c0.fn 1 = true ∧
      (writing 1).writesCovered c0.fn 1 ≠ []) ∧ nvm.opOf c0.fn 1 9 = none ∧
    (let o : Op := { id := 5, src := c0, kind := .flush [] }
     let s : State := { nvm with host := { nvm.host with ops := [o] } }
     Accepts c0 .operational s ∧ s.opOf c0.fn 1 7 = some o ∧ s.op o.id = some o) ∧
    (writing 1).opOf c0.fn 1 7 = some { id := 0, src := c0, kind := .write [0] .success } ∧
    (∃ p ∈ (writing 1).flash.parts, p.id ∈ [0] ∧ 1 ≤ p.stage) ∧
    (writing 0).op 0 = some { id := 0, src := c0, kind := .write [0] .success } ∧
    (∀ p ∈ (writing 0).flash.parts, p.id ∈ [0] → p.stage = 0) := by decide
/-- The hypotheses of ProgramsLoadAndUnload: a predicate image, a bench image and a loaded program. -/
theorem witness_LoadPredicate : (nvm.prog (progKey c0.fn 3)).loaded = false := by decide
theorem witness_LoadBench :
    image1.bytes.getLe 8 4 = image1.len ∧ nvm.sec.signRequired = false ∧
      imageFault (image1.bytes.slice 0 image1.len 0) image1.len = none := by decide
theorem witness_LoadPlaced :
    (match nvm.placeAll (imageEntries (image1.bytes.slice 0 image1.len 0)) (List.range 8) [] with
     | .ok ps => ps.map (·.bench) == [0]
     | .error _ => false) = true := by decide
theorem witness_Unload :
    Pre.idle loaded ∧ (loaded.prog (progKey c0.fn 0)).loaded = true ∧ loaded.benchesOf (progKey c0.fn 0) = [0] ∧
      (loaded.bench 0).retirePending = false ∧ (loaded.bench 0).walker.retirePending = false ∧
      (loaded.bench 0).arrays = [] ∧ (loaded.region 0).haul.pendingGroups = [] := by decide
theorem witness_Execute :
    Accepts c0 .operational loaded ∧ (loaded.prog (progKey c0.fn 0)).kind = 2 ∧
      (loaded.prog (progKey c0.fn 0)).running = none ∧ (loaded.prog (progKey c0.fn 0)).hoistNext = none ∧
      (loaded.benchesOf (progKey c0.fn 0)).Nodup ∧ (loaded.bench 0).quiet = true := by decide
/-- A program of one term, and the products of R45's form (a and b) or c. -/
theorem witness_PredicateIsSumOfProducts :
    ([termOf 0x4001].getLast?).map (·.last) = some true := by decide
theorem test_products :
    products [termOf 0x0001, termOf 0x4002, termOf 0x4003] = [[termOf 0x0001, termOf 0x4002], [termOf 0x4003]] := by
  decide
theorem witness_ScansStart : Pre.scannable c0 1 scanDesc 4096 false scanReady := by decide
theorem witness_ScansPin :
    (scanning scan1).scan 0 = some scan1 ∧ (scanning scan1).flash.pinWait = [0] ∧
      (scanning scan1).flash.pins.length < 16 ∧ (scanning scan1).ckpt.phase = 0 := by decide
theorem witness_AtMostSixteenPins :
    (scanning scan1).flash.pinWait = 0 :: [] ∧ 16 ≤ ({ nvm.flash with pins := List.replicate 16 ⟨0, 1, 0⟩ } : Flash).pins.length := by
  decide
theorem witness_SieveEmpty :
    Pre.sieving 0 0 pinned1 { lba := 0, stack := 0 } (scanning pinned1) ∧
      (scanning pinned1).pinMarked pinned1 0 = false ∧ (pageSeen (scanning pinned1) 0 1 0).zeroAt 0 16384 = true := by decide
theorem witness_SieveMalformed :
    Pre.sieving 0 0 pinned1 { lba := 0, stack := 0 } badPage ∧ badPage.pinMarked pinned1 0 = false ∧
      (pageSeen badPage 0 1 0).zeroAt 0 16384 = false := by decide
theorem witness_ScanLimitsAndEnd :
    (scanning { pinned1 with pages := [] }).scan 0 = some { pinned1 with pages := [] } ∧
      ((scanning pinned1).ctl 0).rdy = true ∧ (scanning pinned1).flash.freePct < 1 ∧ floored.pinsHoldBack = true := by decide
/-- R51: three records of 24 bytes with a limit of two: two are written, and the limit stops the scan. -/
theorem test_takeRecords :
    ({ scan1 with recordLimit := 2 } : Scan).takeRecords (List.replicate 3 (List.replicate 24 0)) = (2, 2) := by decide
/-- The hypotheses of MemoryCommands at the first and the last byte of the extent, one byte beyond it, and as a VF. -/
theorem witness_MemoryCommands :
    Accepts c0 .operational (held1 ext1) ∧ Pre.idle (held1 ext1) ∧ Pre.served c0.fn base1 1 (held1 ext1) ∧
      Pre.writes c0.fn (base1 + 131071) byte1.len (held1 ext1) ∧ byte1.bytes.wf = true ∧
      Pre.writes c0.fn base1 (4096 * 32) (held1 ext1) ∧ (held1 ext1).lbaCheck c0.fn 1 0 32 = .success ∧
      (held1 ext1).anyMarked 1 0 32 = false ∧
      ((held1 ext1).extent 1 3).length * 65536 < (base1 + 131071) % 2 ^ 31 + 2 ∧
      ((held1 { ext1 with owner := 5 }).extent 1 3).owner ≠ c0.fn := by decide
theorem witness_MemoryT1 :
    let s : State := { held1 { ext1 with copyTier := 1, homeTier := 0, slice := 2 } with regions := [(6, { st := .active })] }
    Pre.served c0.fn base1 131072 s := by decide
/-- The hypotheses of ExtentCommands: a creation of two tiles in T2 of face die 1, and the commands on slot 3. -/
theorem witness_ExtentCreate :
    let w : Word := 0x50002
    let s := held1 ext1
    Accepts c0 .operational s ∧ Pre.idle s ∧ s.resets = [] ∧ fld w 31 24 = 0 ∧ 1 ≤ fld w 15 0 ∧ fld w 18 17 = 2 ∧
      s.freeSlot (fld w 16 16) = some 0 ∧ s.fits 1 2 (s.sliceFor 1 0) 2 0 = true := by decide
theorem witness_ExtentNames :
    Pre.names c0 0x80000000 0x8001 1 3 (held1 ext1) ∧ (held1 ext1).inSet 1 3 = false ∧
      ((held1 ext1).extent 1 3).st = 1 ∧ fld 2 1 0 = ((held1 ext1).extent 1 3).copyTier ∧
      fld 3 1 0 = ((held1 ext1).extent 1 3).homeTier ∧ ((held1 ext1).die 1).queue = [] := by decide
theorem witness_ExtentFreeEffect :
    let s : State := { held1 ext1 with host := { nvm.host with
      ops := [{ id := 4, src := c0, kind := .free 1 3 [2] }] } }
    4 ∉ [2] ∧ (s.ctl 0).rdy = true ∧ s.mgmt.planted = [] := by decide
theorem witness_TensorSpaceSettings :
    AcceptsPf c0 .operational nvm ∧ Pre.still nvm ∧ nvm.t3InUse = false ∧
      nvm.allocated + 16000 * 1000000000 ≤ nvm.advertised ∧ (pfGroup c0.fn).contains 16 = true ∧
      (loaded.prog (progKey c0.fn 0)).loaded = true ∧ (loaded.prog (progKey c0.fn 0)).kind = 2 ∧
      Accepts c0 .operational loaded := by decide
/-- A queued move to T3's copy, a moving extent with one and with two tiles to land, a stopped engine and a copy under
way. -/
theorem witness_MoveStart :
    let e : Extent := { ext1 with copyTier := 3, homeTier := 0 }
    let q : List MoveReq := [{ slot := 3, tier := 2, cls := 4, order := 0 }]
    let s : State := { nvm with ts := { nvm.ts with dies := [(1, { slots := [(3, e)], queue := q })] } }
    Pre.still s ∧ s.host.programs = [] ∧ (s.die 1).hoist.stopped = false ∧ s.copies 1 = false ∧
      (s.extent 1 3).pinned = false ∧ s.movesActive 1 < 64 ∧ s.holdFloors 1 = s ∧
      s.regionReady (s.moveSlice 1 (s.extent 1 3) 2) = true ∧ s.fits 1 2 (s.sliceFor 1 0) 2 0 = true := by decide
theorem witness_SpaceTileLanded :
    let e : Extent := { ext1 with st := 2, copyTier := 3, homeTier := 0, destTier := 2 }
    let f : Extent := { e with landed := [0] }
    e.nextTile = some 0 ∧ (∃ x ∈ e.toLand, x ≠ 0) ∧ f.nextTile = some 1 ∧ (∀ x ∈ f.toLand, x = 1) ∧
      (let g : State := held1 { e with copyTier := 2, destTier := 3 }
       (g.programUnit (g.tileStacks (tileAddr 1 3 0)) (g.tileData (tileAddr 1 3 0))).isSome = true) ∧
      Pre.still (held1 e) ∧ (held1 e).copies 1 = false ∧ (held1 e).mgmt.planted = [] := by decide
theorem witness_HoistAndCopy :
    let s : State := { nvm with ts := { nvm.ts with dies := [(1,
      { slots := [(3, { ext1 with writeProtect := [1] })]
        touched := [{ slot := 3, tile := 1, since := 0, copying := true }] })] } }
    let u : State := { nvm with ts := { nvm.ts with dies := [(0, { hoist := { stopped := true } })] } }
    Pre.still s ∧ ((s.die 1).touched.any fun w => w.slot == 3 && w.tile == 1 && w.copying) = true ∧
      s.copies 1 = true ∧ (s.extent 1 3).writeProtect.contains 1 = true ∧ (s.die 1).hoist.stopped = false ∧ (s.die 1).poison = [] ∧
      (u.die 0).hoist.stopped = true := by decide
/-- Steps that wait for a route word, are skipped, are held by a vector kernel and by the gate. -/
theorem witness_SequencerWaits :
    (let s := stepping (BitVec.ofNat 256 (2 ^ 22)) id
     Pre.stepping 0 bind1 s ∧ (s.bench 0).step.readsRoute = true ∧ (s.bench 0).seq.routeQueue = []) ∧
    (let s := stepping (BitVec.ofNat 256 (3 * 2 ^ 23)) id
     (s.bench 0).step.skips (s.bench 0).seq = true ∧ 0 + (s.bench 0).step.skipLen + 1 < bind1.stepCount) ∧
    (let s := stepping (BitVec.ofNat 256 (2 ^ 208)) fun x => { x with vec := { running := true } }
     s.stepWaits 0 (s.bench 0).step bind1 = [waitVector]) ∧
    (let s := stepping (BitVec.ofNat 256 (2 ^ 21)) id
     (s.bench 0).step.gateWait = true ∧ s.stepWaits 0 (s.bench 0).step bind1 = []) := by decide
/-- Steps that issue: NEXT, JUMP, the end of a loop of two and one of three, and the last step. -/
theorem witness_SequencerFlows :
    (let s := stepping 0 id
     Pre.issues 0 bind1 s ∧ Pre.plain (s.bench 0).step ∧ (s.bench 0).step.flow = 0) ∧
    (let s := stepping 0x11 id
     Pre.issues 0 bind1 s ∧ Pre.plain (s.bench 0).step ∧ (s.bench 0).step.flow = 1 ∧ (s.bench 0).step.target = 1) := by decide
theorem witness_SequencerLoops :
    (let s := stepping 2 fun x => { x with seq := { x.seq with loopCount := [some 2, none, none, none]
                                                               loopIdx := [1, 0, 0, 0] } }
     Pre.issues 0 bind1 s ∧ (s.bench 0).step.flow = 2 ∧ (s.bench 0).step.loopSel = 0) ∧
    (let s := stepping 0 fun x => { x with seq := { x.seq with pc := 1 } }
     Pre.issues 0 bind1 s ∧ Pre.execution 0 bind1 run1 s ∧ bind1.stepCount ≤ (s.bench 0).seq.pc + 1) := by decide
/-- A STREAM of one row of logical array 0 from address 0 of T0 with no LOAD before it. -/
theorem witness_StreamWithoutLoadFaults :
    let s := stepping (BitVec.ofNat 256 (2 ^ 129 + 2 ^ 130 + 2 ^ 160)) fun x => { x with
      seq := { x.seq with ags := [some { space := 1 }, none, none, none] } }
    Pre.issues 0 bind1 s ∧ Pre.execution 0 bind1 run1 s ∧ (s.bench 0).step.arrayOp = 2 ∧
      (s.bench 0).step.rows (s.bench 0).seq = 1 ∧ s.agAddress 0 (s.bench 0).step.srcAg 0 64 = some (1, 0) ∧
      (s.bench 0).step.arrayMask = 1 ∧ thas (s.bench 0).seq.tileAddr 0 = false := by decide
/-- END with nothing under way, a barrier at which the one participant waits, and a step that has waited too long. -/
theorem witness_BenchesEndAndMeet :
    (let s := stepping 4 fun x => { x with seq := { x.seq with st := .waiting, finishing := true } }
     Pre.execution 0 bind1 run1 s ∧ s.fenceClear 0 = true) ∧
    (let s := stepping 0 fun x => { x with seq := { x.seq with st := .waiting, atBarrier := some 0 } }
     let t := s.modProg 0 fun p => { p with arrived := [(0, [0])] }
     (t.prog 0).participants 0 = [0] ∧ (t.benchesOf 0).Nodup ∧ (t.bench 0).step.flow = 0) ∧
    (let s := stepping 0 fun x => { x with seq := { x.seq with st := .waiting, waitSince := some 0 } }
     let t : State := { s with clk := { face0 := 3000001 } }
     Pre.execution 0 bind1 run1 t ∧ 0 + 1000 * (t.bench 0).seq.waitLimit < t.dieNow 0) := by decide
/-- END_COMPLETE with another bench still running. -/
theorem witness_EndNotLast :
    let s := (stepping 4 fun x => { x with seq := { x.seq with st := .waiting, finishing := true } }).modProg 0
      fun p => { p with binds := p.binds ++ [{ logical := 1, bench := 1, logicalRegion := 0 }] }
    (s.bench 0).bind = some bind1 ∧ s.fenceClear 0 = true ∧ 1 ∉ (s.prog 0).ended ∧ (1 : Nat) ≠ bind1.logical := by decide
/-- A full gate at its smallest target, one at its deadline, and route words for a running and an ended bench. -/
theorem witness_GateAndRoutes :
    (let s := stepping 0 fun x => { x with gate := { rows := [0], waiting := true, fillTarget := 1, deadlineTicks := 9 } }
     (s.bench 0).gate.waiting = true ∧ s.benchAwake 0 = true ∧ (s.bench 0).gate.fill ≤ 1) ∧
    (let s := stepping 0 fun x => { x with gate := { rows := [0], waiting := true } }
     (s.bench 0).gate.fill = 256 ∧ 0 + (s.bench 0).gate.deadlineTicks ≤ s.dieNow 0) ∧
    (let s := stepping 0 fun x => { x with seq := { x.seq with routeInbox := [(5, 1)] } }
     (s.bench 0).seq.routeInbox = (5, 1) :: [] ∧ (s.bench 0).seq.st ≠ .ended ∧ (1 : Nat) ≠ 0) := by decide
/-- A kernel of one ADD in I32, and of CVT from BF16, RMAX in I32, LD of I8, QUANT into U8Z with the append flag. -/
theorem witness_VectorLanes :
    (let s := vector1 0x210 id
     Pre.vec 0 0x10 (s.bench 0).nextWord s ∧ (s.bench 0).nextWord.fmt = .i32) ∧
    (let s := vector1 (0x20 + 2 ^ 26) id
     Pre.vec 0 0x20 (s.bench 0).nextWord s ∧ vfmtOf (s.bench 0).nextWord.srcC = some .bf16) ∧
    (let s := vector1 0x229 id
     Pre.vec 0 0x29 (s.bench 0).nextWord s ∧ (s.bench 0).nextWord.fmt = .i32) := by decide
theorem witness_VectorRest :
    (let s := vector1 0x14 id
     Pre.vec 0 0x14 (s.bench 0).nextWord s) ∧
    (let s := vector1 0x15 id
     Pre.vec 0 0x15 (s.bench 0).nextWord s) ∧
    (let s := vector1 0x1B id
     Pre.vec 0 0x1B (s.bench 0).nextWord s) ∧
    (let s := vector1 0x28 id
     Pre.vec 0 0x28 (s.bench 0).nextWord s) := by decide
theorem witness_VectorMemory :
    (let s := vector1 0x401 id
     Pre.vec 0 0x01 (s.bench 0).nextWord s ∧ Pre.inT0 0 256 (s.bench 0).nextWord s) ∧
    (let s := vector1 (0x530 + 2 ^ 26) id
     Pre.vec 0 0x30 (s.bench 0).nextWord s ∧ (s.bench 0).nextWord.srcC = 1 ∧ (s.bench 0).gate.rows.length < 512) := by
  decide
theorem witness_VectorEncode :
    (let s := vector1 0x31 fun x => { x with t0 := header1 }
     Pre.vec 0 0x31 (s.bench 0).nextWord s ∧ tileHeaderOk (s.bench 0).t0 0 = true ∧
      Pre.inT0 0 (imageBytes ((s.bench 0).t0.getLe 4 1)) (s.bench 0).nextWord s) ∧
    (let s := vector1 (0x31 + 2 ^ 26) fun x => { x with t0 := header1 }
     Pre.vec 0 0x31 (s.bench 0).nextWord s ∧ (s.bench 0).nextWord.srcC = 1) ∧
    (let s := vector1 0x31 id
     Pre.execution 0 bind1 run1 s ∧ tileHeaderOk (s.bench 0).t0 0 = false) := by decide
theorem witness_VectorRoutes :
    (let s := vector1 (0x38 + 2 ^ 26) id
     Pre.vec 0 0x38 (s.bench 0).nextWord s ∧ (s.bench 0).nextWord.srcC = 1 ∧ s.benchOfLogical 0 0 = some 0 ∧
      s.benchOfLogical 0 1 = none) ∧
    (let s := vector1 (0x39 + 2 ^ 32 * 5) id
     Pre.vec 0 0x39 (s.bench 0).nextWord s ∧ (s.bench 0).nextWord.imm % 4 = 1 ∧ (s.bench 0).seq.countRegs.length = 4) := by
  decide
/-- A remote post to another bench of the program, running or ENDED. -/
theorem witness_VectorRemote :
    let s := ((vector1 (0x38 + 2 ^ 26) fun x => { x with vec := { x.vec with regs := [(0, [(2, 1)])] } }).modProg 0
      fun p => { p with binds := p.binds ++ [{ logical := 1, bench := 1, logicalRegion := 0 }] }).modBench 1
      fun x => { x with seq := { st := .running } }
    s.benchOfLogical 0 (((s.bench 0).vec.lanes 0).getD 2 0).toNat = some 1 ∧ (s.bench 1).seq.st = .running := by decide
theorem witness_InvalidVectorWordFaults :
    let s := vector1 0x03 id
    Pre.execution 0 bind1 run1 s ∧ (s.bench 0).vec.running = true ∧ (s.bench 0).nextWord.valid = false ∧
      .nop 0 ∈ vectorRows 0 := by decide
theorem witness_ArrayLoads :
    (let s := array1 { queue := [.load 0 0 true 0 none] } header1
     (s.arr 0 1).load = none ∧ s.benchAwake 0 = true ∧ tileHeaderOk (s.bench 0).t0 0 = true ∧
      0 + imageBytes ((s.bench 0).t0.getLe (0 + 4) 1) ≤ 0x800000 ∧ s.mgmt.planted = []) ∧
    (let s := array1 { queue := [.load 0 0x7FFBC0 true 0 none] } header1
     Pre.execution 0 bind1 run1 s ∧ tileHeaderOk (s.bench 0).t0 0x7FFBC0 = false ∧ 0x7FFBC0 + 1088 ≤ 0x800000) ∧
    (let s := array1 { queue := [.stream 1 0x2000 0 0 255 1 2 false (some (0, true)) 0], owner := some 0 } header1
     (s.arr 0 1).load = none ∧ (s.arr 0 1).owner ≠ some 1 ∧ tileHeaderOk (s.bench 0).t0 0 = true) ∧
    (let s := array1 { load := some { tile := tile1, logical := 0, reload := false } } []
     (s.arr 0 1).load.isSome = true ∧ s.benchAwake 0 = true) := by decide
/-- A stream of the one row into bank 0, accumulator row 255. -/
theorem witness_ArrayStreams :
    let s := array1 { queue := [.stream 0 0x2000 0 0 255 1 2 false none 0], tile := tile1, owner := some 0 } act1
    (s.arr 0 1).owner = some 0 ∧ actHeaderOk (s.bench 0).t0 0x2000 0 1 255 2 = true ∧
      badRow (s.bench 0).t0 0x2000 0 1 2 = none ∧
      badScale (tget {} (s.arr 0 1).banks 0) (s.bench 0).t0 0x2000 0 255 1 = none ∧
      0x2000 + 0x900 + 256 * 0 + 256 * (1 + 255) ≤ 0x800000 := by decide
/-- The same stream without a tile header, with other channel scales, with a full bank and with a wrong format of row. -/
theorem witness_StreamChecks :
    (let s := array1 { queue := [.stream 0 0x2000 0 0 255 1 2 false none 0], tile := tile1, owner := some 0 } []
     Pre.execution 0 bind1 run1 s ∧ actHeaderOk (s.bench 0).t0 0x2000 0 1 255 2 = false) ∧
    (([], 0) : List Word × Nat) ≠ (tile1.scales, tile1.nCount) ∧
    badScale { tokScale := [(255, 1)] } act1 0x2000 0 255 1 ≠ none ∧
    badRow (act1.put 0x2105 1) 0x2000 0 1 2 ≠ none ∧ actHeaderOk (act1.put 0x2105 1) 0x2000 0 1 255 2 = true := by decide
theorem witness_ArrayDrains :
    (let s := array1 { queue := [.drain 0 0x40 0x7FFC00 0 255 1 5 0] } []
     drainBlockOk (s.bench 0).t0 0x40 5 = true ∧ (drainBlockAt (s.bench 0).t0 0x40).bias = false ∧
      0x7FFC00 + 1024 * 1 ≤ 0x800000 ∧ (s.arr 0 1).drain = none) ∧
    (let s := array1 { drain := some 2 } []
     (s.arr 0 1).drain = some 2 ∧ s.benchAwake 0 = true) := by decide
theorem witness_StreamEnd :
    let s := array1 { streams := [{ bank := 0, fmt := 2, first := 0, acc := 0, n := 1, noAdd := false, act := 0,
                                    logical := 0, pc := 0 }] } []
    s.benchAwake 0 = true ∧ (s.arr 0 1).streams ≠ [] := by decide
/-- R72: a live and a dead row of a tile in I4S with the code 0xF in cell (0, 0), which is -1. -/
theorem test_tilePasses :
    let t : TileRegs := { format := 3, blockPresent := 1, codes := [(0, 0x0F)] }
    t.rowLive 0 = true ∧ t.product 0 0 7 = -7 ∧ t.product 1 0 7 = 0 := by decide
theorem witness_RetiredWalkerFaults :
    let s := walk1 { launch := some (0, 1, 0), retired := true } []
    (s.bench 0).walker.retired = true ∧ s.benchAwake 0 = true ∧ Pre.execution 0 bind1 run1 s := by decide
theorem witness_RetiredWalkerLaunch :
    ∃ s s1 s2, Pre.issues 0 bind1 s ∧ Pre.execution 0 bind1 run1 s ∧ (s.bench 0).step.walkLaunch = true ∧
      (s.bench 0).walker.retired = true ∧ (stepBegun 0 bind1 s).issueArray 0 (s.bench 0).step bind1 = .ok s1 ∧
      s1.issueVector 0 (s.bench 0).step = .ok s2 :=
  ⟨launching, stepBegun 0 bind1 launching, stepBegun 0 bind1 launching, by decide, by decide, by decide, by decide,
    rfl, rfl⟩
theorem witness_WalkerRejects :
    let s := walk1 { launch := some (0, 1, 0) } []
    searchOk (s.bench 0).t0 0 = false ∧ s.mgmt.planted = [] ∧ Pre.execution 0 bind1 run1 s := by decide
theorem witness_WalkerStarts :
    let s := walk1 { launch := some (0, 1, 0) } descriptor1
    let v := searchOf (s.bench 0).t0 0 0
    searchOk (s.bench 0).t0 0 = true ∧ v.useFilter = false ∧ v.exhaustive = true ∧ Pre.unhoisted 0 0 s ∧
      Pre.served 0 v.lode 1024 s := by decide
theorem witness_WalkerHeader :
    let l := lodeOf (Mem.copyIn [] 0 (Mem.copyIn [] 0 header2 0 1024) 0 1024)
    l.ok = true ∧ (searchOf descriptor1 0 0).fits l = true ∧ l.generation = (searchOf descriptor1 0 0).generation.toNat := by
  decide
/-- The first node, the last one, and the visit limit. -/
theorem witness_WalkerExhaustive :
    (let s := walk1 { search := some (search1 {}) } []
     let l := lodeOf header2
     Pre.walking 0 0 (search1 {}) {} s ∧ l.tomb = 0 ∧ 0 + 1 < l.nodes ∧
      Pre.served 0 (l.vector 0) l.dim s ∧ (search1 {}).queryAddr + 0 * l.dim + l.dim ≤ 0x800000) ∧
    (let q : Query := { nextNode := 1 }
     let s := walk1 { search := some (search1 q) } []
     let l := lodeOf header2
     Pre.walking 0 0 (search1 q) q s ∧ l.nodes ≤ 1 + 1 ∧ Pre.served 0 (l.vector 1) l.dim s ∧
      ((nodeVisited q (search1 q) 0 1).block (search1 q)).length = 40) ∧
    (let q : Query := { visits := 9 }
     Pre.walking 0 0 (search1 q) q (walk1 { search := some (search1 q) } []) ∧ (search1 q).maxVisits ≤ q.visits) := by
  decide
theorem witness_WalkerPages :
    let s := walk1 { search := some search2 } []
    let l := lodeOf search2.header
    Pre.walking 0 0 search2 { q := [{ dist := 3, node := 1 }] } s ∧ l.base ≠ 1 ∧ search2.slotOf (l.pageOf 1) = none ∧
      search2.freeSlot l = some 0 ∧ search2.reading.contains 0 = true ∧ Pre.execution 0 bind1 run1 s ∧
      s.anyMarked l.nsid (l.lba + 4 * 0) 4 = false ∧ s.lbaCheck (s.benchFn 0) l.nsid (l.lba + 4 * 0) 4 = .success := by
  decide
theorem witness_WalkerPageBad :
    pageOk [] (lodeOf search2.header) 0 = false := by decide
theorem witness_WalkerResultsStayOrdered :
    let q : Query := { r := [(3, 1), (3, 2)] }
    q.r.length ≤ 2 ∧ (q.insertR 2 3 9).2 = false ∧ (q.insertR 2 2 9).1.r = [(2, 9), (3, 1)] := by decide

set_option exponentiation.threshold 600 in
theorem witness_HaulCopy :
    let s := hauling copyLine 0 []
    let x := lineDescOf copyLine
    Pre.grants 0 0 { order := 0, line := 5, bench := 0, index := 0, loopIdx := 0 } x s ∧ x.mode = 1 ∧
      x.src (s.benchParams 0) 0 0 = ((0x40 : Nat) : Int) ∧ x.dst (s.benchParams 0) 0 0 = ((0x7FFFC0 : Nat) : Int) ∧
      0x7FFFC0 + x.burst ≤ 0x800000 ∧ 0x40 + x.burst ≤ 0x7FFFC0 := by decide
set_option exponentiation.threshold 600 in
theorem witness_HaulRow :
    let s := hauling rowLine 1 []
    let x := lineDescOf rowLine
    Pre.grants 0 0 { order := 0, line := 5, bench := 0, index := 1, loopIdx := 0 } x s ∧ x.mode = 2 ∧ 1 < x.rep ∧
      x.src (s.benchParams 0) 0 1 = ((264 : Nat) : Int) ∧ 0x10000 + actTileBytes x.rep ≤ 0x800000 := by decide
set_option exponentiation.threshold 600 in
/-- A descriptor of zeros, one whose source is not aligned, and a row that is done and appends. -/
theorem witness_HaulStops :
    (let s := hauling 0 0 []
     (s.region 0).haul.order.map (·.1) = [0] ∧ lineDescOk (tget {} (s.region 0).haul.lines 5).desc = false) ∧
    (let d : BitVec 512 := 0xFF000000000000000000000000007FFFC0000000000000004100000001000000400000010100000001
     lineDescOk d = true ∧ (lineDescOf d).src [] 0 0 % 64 ≠ 0) ∧
    (let s := hauling rowLine 1 [{ order := 0, burst := .row 1 1 2, dst := 0x10000, append := true }]
     ((s.region 0).haul.finished 5).isSome = true ∧ (s.bench 0).gate.rows.length < 512) := by decide
/-- A misaligned access, a PF's register, a reserved offset and the region window, each state of the region. -/
theorem witness_RegisterAccesses :
    accessOk 0 0x3FFFFFC true = false ∧ Pre.bar 0 ready ∧ accessOk 0 0x200000 true = true ∧
      placeOf 0x200000 = .sc 0 ∧ accessOk 0 0x3FFFFF8 true = true ∧ placeOf 0x3FFFFF8 = .reserved ∧
      placeOf (regionBase 5 + 0x108) = .rg 5 0x108 ∧ (ready.region 5).st = .sleep ∧ ready.host.powerState < 3 ∧
      Pre.window (regionOf 29) (awake5 {}) ∧ (awake5 {}).benchInService 29 = true := by decide
set_option exponentiation.threshold 600 in
/-- The hypotheses of RegisterCommands. -/
theorem witness_RegisterCommands :
    (let s := awake5 { errValid := true, stopped := true, armed := 0 }
     Pre.bar 0 s ∧ Pre.window 5 s ∧ (s.region 5).haul.errValid = true ∧ bitOf (0x20000 : Word).toNat 17 = true) ∧
    (let s := awake5 { reqs := [{ order := 0, line := 63, bench := 25, index := 0, loopIdx := 0 }] }
     0 < (s.region 5).haul.pending 63 ∧ (s.region 5).haul.isArmed ((s.region 5).haul.channelOf 63) = true) ∧
    (let s : State := { ready with fabric := { ports := [(7, { disable := true, st := 8 })] } }
     Pre.bar 0 s ∧ (s.port 7).st = 8 ∧ (s.port 0).disable = false ∧ (s.port 0).st ≠ 9) ∧
    ready.mgmt.scrubBusy = false ∧ ready.testWritable = false ∧
    (tget ({} : Monitor) ready.mgmt.monitors 63).enabled = false := by decide
theorem witness_IdentifyAndLogs :
    Accepts c0 .info nvm ∧ (nvm.ctl 0).ps < 3 ∧ nvm.nsUsable 0 1 = true ∧ nvm.nsUsable 0 64 = false ∧
      isPf 0 = true ∧ Accepts c1 .info readyVf ∧ isPf c1.fn = false := by decide
theorem witness_LogPages :
    (match (nvm.fetch c0).logPage 0xC2 with | some p => decide (p.len = 16448) | none => false) = true ∧
      (match nvm.vendorFeature 0 0xC3 with | some v => decide (v = (1, 1, 1)) | none => false) = true := by decide
theorem witness_FeaturesAndPowerStates :
    Accepts c0 .operational nvm ∧ earlyWarningOk 0x0A1402FF = true ∧ earlyWarningOk 0x0A0402FF = false ∧
      nvm.outstanding 0 = false ∧
      (let s : State := { nvm with host := { nvm.host with controllers := [(0, { ctl0 with idlePs := some 4 })] } }
       Accepts c0 .operational s ∧ (s.ctl 0).rdy = true ∧ s.outstanding 0 = false ∧ (s.ctl 0).idleTarget s.now = some 4) := by decide
theorem witness_NamespacesFormatSanitize :
    Accepts c0 .operational encrypted1 ∧ encrypted1.nsUsable 0 1 = true ∧ (encrypted1.ns 1).encrypted = true ∧
      (encrypted1.ns 2).active = false ∧ encrypted1.allocated + 1073741824 * ceilDiv 1 262144 ≤ encrypted1.nvmCapacity ∧
      encrypted1.hasFn 16 = true ∧ 16 ∉ (encrypted1.ns 1).attached ∧ 0 ∈ (encrypted1.ns 1).attached ∧
      Pre.still encrypted1 ∧ encrypted1.flash.parts = [] ∧ encrypted1.ckpt.flash = none ∧
      encrypted1.ckpt.buddy = none ∧ (nvm.ns 1).encrypted = false ∧ nvm.nsUsable 0 1 = true := by decide
theorem witness_ControllersAndQueues :
    Accepts c0 .operational enabling ∧ thas (enabling.ctl 0).cqs 64 = false ∧ queueLimit 0 = 64 ∧
      thas (enabling.ctl 0).cqs 1 = true ∧ thas (enabling.ctl 0).sqs 64 = false ∧
      3 < (tget {} (enabling.ctl 0).sqs 1).entries ∧ (enabling.ctl 1).en = true ∧ (enabling.ctl 1).rdy = false ∧
      enabling.flash.mounted = true ∧ enabling.resets = [] ∧ (enabling.ctl 2).en = false ∧ enabling.inPerst 2 = false ∧
      enabling.hasFn 2 = true ∧ (enabling.ctl 0).aenQueue = (0x50, 0xC3) :: [] ∧ (nvm.ctl 0).aenQueue = [] ∧
      (nvm.ctl 0).aers = [] ∧ State.reset.flash.mounted = false ∧ enabling.host.programs = [] ∧
      enabling.ts.dies = [] := by decide
theorem witness_FirmwareDownloadCommitBoot :
    Accepts c0 .operational ready ∧ ready.sec.booted = true ∧ Pre.fragment 4 { len := 4, bytes := [(3, 9)] } ∧
      Pre.fragment 32505852 { len := 4, bytes := [] } ∧ State.reset.sec.booted = false ∧ State.reset.power.on = true ∧
      (∃ r ∈ State.reset.resets, r.scope = 4) ∧ State.reset.sec.completionRecord = State.reset.lifeCycle.code ∧
      slotBank 2 = some 1 ∧ slotBank 1 = some ready.sec.bootBank ∧ slotBank 3 = none := by decide
theorem witness_CommitIsPossible :
    Accepts c0 .operational staged1 ∧ staged1.mgmt.fwWork = none ∧ 1 ≠ staged1.sec.bootBank ∧
      (staged1.bank staged1.sec.bootBank).sequence < FwBank.sequence { header := [(8, 1)] } ∧
      (let s : State := { ready with sec := {} }
       s.sec.booted = false ∧ s.power.on = true ∧ ∀ r ∈ s.resets, r.scope ≠ 4) := by decide
theorem witness_ProvisioningAndLifeCycle :
    AcceptsPf c0 .provision blank0 ∧ AcceptsPf c0 .slot0 blank0 ∧ blank0.sec.seed = some 0 ∧ fld 0 0 0 = 0 ∧
      AcceptsPf c0 .slot1 owned ∧ owned.sec.seed = some 0 ∧ fld 1 0 0 = 1 ∧ fld 1 31 1 = 0 ∧
      AcceptsPf c0 .lifeCycle owned ∧ owned.lifeCycle = .provisioned ∧ owned.resets = [] ∧ owned.host.ops = [] ∧
      fld 2 3 0 = 2 ∧ fld 4 3 0 = 4 ∧ fld 4 31 4 = 0 ∧ AcceptsPf c0 .signing owned ∧ ready.lifeCycle = .deployed ∧
      AcceptsPf c0 .lifeCycle ready ∧
      (let s : State := { ready with host := { ready.host with ops := [{ id := 0, src := c0, kind := .flush [] }] } }
       AcceptsPf c0 .lifeCycle s ∧ s.host.ops ≠ []) ∧ Accepts c1 .lifeCycle readyVf ∧ isPf c1.fn = false := by decide
theorem witness_Attestation :
    Pre.attesting 0 owned ∧ blank0.mailbox 0 = true ∧ blank0.attests = false ∧ 39 < (owned.sec.chain 0).len ∧
      (owned.sec.chain 1).len ≤ 0 ∧ owned.sec.seed = some 0 ∧ (owned.liveSessions 0).length < 4 ∧
      owned.session 0 1 = some { id := 1, port := 0, owner := true, beat := 0 } ∧ owned.session 0 2 = none ∧
      keyFieldsOk 8 Buf.none = true ∧
      (let l : List Session := List.replicate 4 { id := 1, port := 0, owner := true, beat := 0 }
       let s : State := { owned with sec := { owned.sec with sessions := l } }
       4 ≤ (s.liveSessions 0).length) := by decide
theorem witness_ManagementInterface :
    Pre.managed ready ∧ blank0.miServed = true ∧ permits .operational blank0.lifeCycle = false := by decide
theorem witness_PortsAndEpochs :
    State.reset.linkLogic = false ∧
    (let s := meshed { st := 1, eqFails := [(3, 2)] }
     Pre.trainable 0 s ∧ (s.port 0).retiredLanes < 16 ∧ bitOf (s.port 0).retiredLanes 3 = false ∧
       tget 0 (s.port 0).eqFails 3 = 2) ∧
    (let s := meshed { st := 4 }
     (s.port 0).st = 4 ∧ s.linkLogic = true ∧ s.fabric.faces 0 1 1 0 = true ∧ s.fabric.faces 0 2 1 0 = false ∧
       s.fabric.coldResync = false ∧ s.fabric.resyncDue = [] ∧ s.fabric.pendingEpoch = none) ∧
    (let s := meshed { st := 5, replayBuf := [{}], replayRun := 7 }
     (s.port 0).st = 5 ∧ (s.port 0).replayBuf ≠ [] ∧ (s.port 0).replayBuf.length < 256 ∧ (s.port 7).st ≠ 5 ∧
       s.fabric.linkUp s.fabric.selfIdent 7 = true ∧ s.fabric.heldEvents = [] ∧ s.fabric.waiting = false) ∧
    (let s : State := { meshed { st := 5 } with fabric := { (meshed { st := 5 }).fabric with
       waiting := true, down := [(0, 0)], heldEvents := [{ base := 0, originator := 1, kind := 1, subject := 23 }] } }
     s.fabric.waiting = true ∧ s.linkLogic = true ∧ s.fabric.linkUp s.fabric.selfIdent 0 = false ∧
       s.ckpt.autoTakeover = false) := by decide
/-- Nothing waits on a module whose ports hold nothing. -/
theorem witness_calm (p : Port) (h : p.received = [] ∧ p.txQueue = [] ∧ p.owes = false) : Pre.calm (meshed p) := by
  refine ⟨fun q => ?_, rfl, rfl, rfl, rfl, rfl, rfl⟩
  by_cases hq : 0 = q
  · subst hq; exact h
  · show (tget {} [(0, p)] q).received = [] ∧ (tget {} [(0, p)] q).txQueue = [] ∧ (tget {} [(0, p)] q).owes = false
    simp [tget, hq, Port.owes]
theorem witness_quiet : Pre.quiet 0 (meshed { st := 5, exchanged := true }) :=
  ⟨by decide, witness_calm _ (by decide), by decide, by decide, by decide, by decide, by decide, by decide, by decide⟩
theorem witness_flitHere : (meshed {}).fabric.mine (flitOf []).dst = true ∧
    (meshed {}).fabric.mine (flitOf [(4, 9)]).dst = false ∧ (meshed {}).exitPort (flitOf [(4, 9)]).dst = none := by decide
theorem witness_PeerWindowsAndMessages :
    AcceptsPf c0 .operational nvm ∧ fld 60000 15 0 ≤ 60000 ∧ 60000 < fld 60001 15 0 ∧
      Pre.names c0 0x80000000 0x8001 1 3 accepting ∧ (accepting.extent 1 3).st ≠ 3 ∧ fld 0x3FFFFF 31 22 = 0 ∧
      addrOf 0x80000000 0x8001 = some base1 ∧ isBase base1 = true ∧
      (0x1FFF8 : Word).toNat % 8 = 0 ∧ (0x1FFF8 : Word).toNat < (accepting.extent 1 3).length * 65536 ∧
      Pre.served 0 base1 (0x20000 : Word).toNat accepting ∧ accepting.storeRoom 1 131072 = true ∧
      (accepting.extent 1 3).owner = 0 := by decide
theorem witness_Messages :
    let m := fun a : Nat => ({ dst := 0, seq := 0, addr := a, payload := byte1, kind := .signal } : Msg)
    let s := arrived (m (base1 + 131071)) accepting
    Pre.arrived 1 0 (base1 + 131071) byte1 .signal s ∧ tget 0 s.fabric.expectSeq 1 = 0 ∧ Pre.idle s ∧
      s.whole 1 (m (base1 + 131072)) = false ∧
      Pre.arrived 1 0 (base1 + 131072) byte1 .signal (arrived (m (base1 + 131072)) accepting) ∧
      s.acceptFor 1 (base1 + 131072) 1 = none ∧
      s.acceptFor 1 (base1 + 131071) 1 = some { die := 1, slot := 3, accept := true, fn := 0, coord := 1 } ∧
      Pre.writes 0 (base1 + 131071) byte1.len s ∧ byte1.bytes.wf = true ∧
      s.signalBench { die := 1, slot := 3, accept := true, fn := 0, coord := 1 } = none := by decide
theorem witness_Signals :
    let w : Window := { die := 1, slot := 3, accept := true, fn := 0, coord := 1, index := 2, logical := 1 }
    let s : State := { accepting with host := { accepting.host with
      programs := [(progKey 0 2, { loaded := true, running := some 9, binds := [{ logical := 1, bench := 5 }] })] } }
    s.signalBench w = some 5 ∧ (s.bench 5).seq.st ≠ .ended ∧ (s.bench 5).seq.routeQueue.length < 64 := by decide
theorem witness_Acks :
    (let s := unacked .write (.peerCopy base1 0 1 1 true)
     s.host.ops.map (·.id) = [4] ∧ (s.ctl c0.fn).rdy = true ∧ s.fabric.store.map (·.op) = [some 4] ∧
       s.linkLogic = true ∧ s.fabric.heldWrites = [] ∧ s.ckpt.serving = [] ∧
       s.routeless 1 = true ∧ s.host.programs = [] ∧ 2 ≠ s.fabric.partner) ∧
    (let s := unacked (.bind 2) (.peerBind 1 3 1)
     s.ts.windows.map (·.confirmed) = [false] ∧ s.fabric.store.map (·.kind) = [.bind 2] ∧ s.ckpt.buddy = none) ∧
    accepting.routeless 1 = false := by decide
theorem witness_DirectMedia :
    Pre.direct c0 4000 4000 (direct4000 false) ∧ thas (direct4000 false).flash.media (1024 * 4000 + fld 0 7 0) = true ∧
      fld 0x100FF 7 0 = 255 ∧ bitOf (0x10001 : Word).toNat 16 = true ∧
      ((direct4000 true).blk 4000).nextPage = 4 * fld 0x10001 7 0 ∧ Pre.direct c0 4000 4000 (direct4000 true) ∧
      (direct4000 false).roleOf 4001 ≠ 3 ∧ Accepts c0 .direct ready ∧ ready.lifeCycle = .deployed := by decide
theorem witness_DirectReserve :
    let s : State := { ready with sec := { lcRecord := [1], booted := true } }
    AcceptsPf c0 .direct s ∧ s.lifeCycle ≠ .deployed ∧ s.directBlocks = [] ∧
      4 * (s.poolBlocks - 4 * s.diesInService) ≤ 100 * (s.poolFree - 4 * s.diesInService) := by decide
theorem witness_noAers : Pre.noAers ready := by
  intro fn
  by_cases h : 0 = fn
  · subst h; rfl
  · show (tget ({} : Controller) [(0, _)] fn).aers = []
    simp [tget, h]
theorem witness_FlashBackgroundWork :
    (worn {}).keyAt 4096000 = some (iuKey 1 0) ∧ iuKey 1 0 / 2 ^ 40 ≠ 0 ∧
      ((worn { reads := 500000 }).blk 4000).readDue = true ∧
      ((worn {}).blk 4000).readDue = false ∧ Pre.patrols 4096000 (worn {}) ∧ 4096000 ∉ (worn {}).flash.reading ∧
      (∀ q ∈ (worn {}).patrolPages, q = 4096000 ∨ q ∈ (worn {}).flash.patrolRead) ∧
      (worn {}).flash.freePct < 2 ∧ (worn {}).flash.throttling = false ∧ (worn {}).dieServes 31 15 = true ∧
      15 < (worn {}).diesPerStack ∧ (worn {}).journalStack.isSome = true ∧
      (worn {}).blocksLost < (worn {}).spareAtManufacture ∧ ready.flash.mounted = false ∧ ready.sec.booted = true := by
  decide
theorem witness_Victims :
    (worn { st := 0 }).victim = some 4000 ∧ (worn { st := 0 }).validIn 4000 ≠ [] ∧ (worn { st := 0 }).mayReclaim = true ∧
      (drained { st := 0 }).victim = some 4000 ∧ (drained { st := 0 }).validIn 4000 = [] ∧
      (drained { st := 0 }).mayReclaim = true ∧
      (drained { st := 0 }).unpinned 4000 = true ∧ ((worn { erasing := true }).blk 4000).erasing = true ∧
      (worn { erasing := true }).recordQueued 4000 = false := by decide
theorem witness_Fold :
    let s : State := { worn { st := 0 } with flash := { (worn { st := 0 }).flash with readOnly := true } }
    Pre.folding 4000 (iuKey 1 0, 4096000) s ∧
      ((s.countRead 4096000).copyQlc (tget [] s.flash.media 4096000)).isSome = true := by decide
theorem witness_StripeAndRebuild :
    (let s : State := { worn {} with flash := { (worn {}).flash with
        stripes := [{ id := 3, parityStack := 31, members := [4096000] }], relocs := [{ key := 1, old := 2, new := 3 }] } }
     ((s.takeUnit 31).map fun e => e.2.length) = some 4 ∧ (∀ x ∈ s.flash.stripes, x.parity = 0 ∧ x.members ≠ [] ∧
       ∀ m ∈ x.members, Mem.wf (tget [] s.flash.media m) = true)) ∧
    (let s : State := { worn {} with flash := { (worn {}).flash with seam := [(7, { rebuilding := true, st := 1, dieRetired := [3] })] } }
     (s.stack 7).rebuilding = true ∧ s.dieServes 7 3 = false ∧ s.toRebuild 7 = []) ∧
    (let s : State := { worn {} with flash := { seam := (List.range 31).map fun k => (k, { st := 2 }) } }
     s.journalStack = none) := by decide
theorem witness_Checkpoints :
    AcceptsPf c0 .operational (setOf1 {}) ∧ Pre.settled (setOf1 {}) ∧ (setOf1 {}).ckpt.lastCut < cutOf 1 0 ∧
      cutOf 0 0 ≤ (setOf1 {}).ckpt.lastCut ∧ nvm.ckpt.attached = false ∧ (setOf1 {}).ckpt.waitResult 1 = some (.vendor 0xC7, 0) ∧
      (setOf1 {}).imageFor 1 0 = none ∧
      (let s := setOf1 { history := [{ number := 1, streams := 1 }] }
       s.ckpt.waitResult (cutOf 1 0) = none) ∧
      (let s := setOf1 { phase := 1 }
       AcceptsPf c0 .operational s ∧ s.ckpt.phase ≠ 0) := by decide
set_option maxRecDepth 20000 in
theorem witness_CutDue :
    (setOf1 {}).ckpt.interval = 48989 ∧
      (let s := { setOf1 {} with clk := { hoist := 146967000 } }
       s.ckpt.interval ≤ (s.now - s.ckpt.lastCutAt) / ticksPerMs) ∧
      (let s := { setOf1 {} with clk := { hoist := 146966999 } }
       (s.now - s.ckpt.lastCutAt) / ticksPerMs < s.ckpt.interval) := by decide
theorem witness_CutProtect :
    cutting.cutReady = true ∧ cutting.ckpt.cutOp = some 2 ∧ (cutting.ctl c0.fn).rdy = true ∧ cutting.partnerLive = false ∧
      (cutting.ckpt.cutWantFlash && cutting.flashAllowed) = true ∧ cutting.savedTiles = [(1, 3, 0)] := by decide
theorem witness_CutLive :
    cuttingLive.cutReady = true ∧ cuttingLive.host.ops = [] ∧ cuttingLive.ckpt.cutOp = none ∧
      cuttingLive.partnerLive = true ∧ cuttingLive.ckpt.nextFull = true ∧ cuttingLive.savedTiles = [(1, 3, 0)] ∧
      Pre.streamable (1, 3, 0) cuttingLive ∧ cuttingLive.storeRoom 1 65536 = true := by decide
theorem witness_Restore :
    let s := setOf1 { flashCut0 := 5, flashFrames0 := [{ addr := base1, cut := 5, data := [(7, 8)] }]
                      manifests := [(5, [{ addr := base1, cls := 1, length := 1 }])] }
    s.imageFor (cutOf 5 0) (fld 2 1 0) = some { frames := [{ addr := base1, cut := 5, data := [(7, 8)] }]
                                                entries := [{ addr := base1, cls := 1, length := 1 }], source := 2 } ∧
      isSaved { addr := base1, cls := 1, length := 1 } = true ∧
      (s.entryExtent { addr := base1, cls := 1, length := 1 }).st = 1 ∧
      (s.entryExtent { addr := base1, cls := 1, length := 1 }).length = 1 ∧ s.resets = [] := by decide
theorem witness_FlashStream :
    let b : Stream := { cut := 5, tiles := [(1, 3, 0)], todo := [(1, 3, 0)], page := 3, fails := 2 }
    let s := setOf1 { flash := some b }
    s.ckpt.flash = some b ∧ Pre.streamable (1, 3, 0) s ∧ s.ckpt.flashSlot = 0 ∧ s.ckpt.flashCut1 = 0 := by decide
theorem witness_Takeover :
    (let s : State := { nvm with fabric := { spare := true, configured := true } }
     AcceptsPf c0 .operational s ∧ s.fabric.assumedHere = none ∧ coordBoard (fld 1 11 0) = s.fabric.board) ∧
    (let s : State := { nvm with ckpt := { phase := 4, takeoverCoord := some 1 } }
     s.ckpt.phase = 4 ∧ s.fabric.heldEvents = []) ∧ nvm.fabric.spare = false := by decide
theorem witness_ProtectionAndScrub :
    (let s := awake5 {}
     Pre.scrubbed 1 29 4095 [] s ∧ Pre.scrubbed 1 29 4095 [1] s ∧ Pre.scrubbed 1 29 4095 [2] s ∧ s.mgmt.rowHits = [] ∧
       Pre.still s ∧ s.resets = [] ∧ Pre.scrubbed 0x0C 0 0 [2] s ∧ Pre.scrubbed 7 0 (2 ^ 48 - 256) [] s) ∧
    (let s : State := { awake5 {} with mgmt := { rowHits := [(1, 29, 4095 / 8 * 8 / 1024, [4, 5])], scrubBusy := true, scrubPass := (1, 5),
                                                 erasure := [(3, 2)], dieNames := [(16, { rows := List.range 16 }),
                                                   (53, { words := List.range 64 })] } }
     Pre.scrubbed 1 29 4095 [1] s ∧ s.passCovers 1 29 (4095 / 8 * 8) = true ∧ s.passCovers 7 0 0 = false ∧
       s.erasedOf 3 = some 2 ∧ s.erasedOf 0 = none ∧ thas s.mgmt.secondDie 3 = false ∧ s.dieCriteria 1 0 = true ∧
       s.dieCriteria 3 5 = true ∧ s.dieCriteria 1 1 = false ∧ thas s.mgmt.erasure 1 = false ∧
       Pre.scrubbed 7 0 (2 ^ 63 + 65536) [9, 3] s ∧ s.erasedOf (scrubStack 0 (2 ^ 63 + 65536)) = none) ∧
    (weightOf [0, 9, 3] = 12 ∧ weightOf [0, 9, 3] - [0, 9, 3].getD 1 0 ≤ 3) := by decide
theorem witness_ResetsBeginAndEnd :
    ready.power.on = true ∧ (ready.region 7).st ≠ .retired ∧ ready.resets = [] ∧ Pre.noWide ready ∧
      ready.hasFn 0 = true ∧ scopeWithin 2 1 3 0 = true ∧ scopeWithin 2 1 1 5 = false ∧
      (State.reset.resets.map (·.scope)) = [4] ∧ State.reset.sec.booted = false := by decide
theorem inReset_region (l : List Nat) (r : Nat) :
    tget ({} : Region) (l.map fun k => (k, ({ st := .reset } : Region))) r = {} ∨
      tget ({} : Region) (l.map fun k => (k, ({ st := .reset } : Region))) r = { st := .reset } := by
  induction l with
  | nil => exact .inl rfl
  | cons a l ih =>
    by_cases h : a = r
    · exact .inr (by simp [tget, h])
    · simpa [tget, h] using ih
/-- No bench is bound, nothing retires, no port is ACTIVE and no event request waits where a reset runs. -/
theorem witness_lastReset (scope idx : Nat) (p : List (Completion × Nat)) :
    Pre.lastReset { scope := scope, idx := idx, entry := { kind := 5 }, posts := p } (resetting scope idx p) := by
  refine ⟨rfl, rfl, fun h => ?_, rfl, ⟨rfl, rfl⟩, rfl, fun _ _ => rfl, ⟨fun _ _ => ⟨rfl, rfl, fun _ => rfl⟩, fun r _ => ?_⟩, rfl, rfl,
    fun _ h => ?_, fun fn => ?_⟩
  · exact absurd h (show (5 : Nat) ≠ 1 by decide)
  · rcases inReset_region (List.range 8) r with h | h
    · exact ⟨congrArg Region.retirePending h, congrArg (fun g => g.haul.pendingGroups) h⟩
    · exact ⟨congrArg Region.retirePending h, congrArg (fun g => g.haul.pendingGroups) h⟩
  · exact absurd h (show (0 : Nat) ≠ 5 by decide)
  · by_cases h : 0 = fn
    · subst h; rfl
    · show (tget ({} : Controller) [(0, _)] fn).aers = []
      simp [tget, h]
theorem witness_ResetComplete :
    ((resetting 1 7 []).region 7).st = .reset ∧ ((resetting 1 7 []).die (dieOf 7)).held = false ∧
      ((resetting 1 7 []).die (dieOf 7)).slots = [] ∧ ((resetting 1 7 []).ctl c0.fn).rdy = true ∧
      (resetting 3 0 []).sec.transition = none := by decide
theorem witness_PinsAndInputPower :
    ready.power.on = true ∧ (ready.input 0).level = false ∧ ready.host.dual = false ∧ (ready.input 2).masked = false ∧
      ready.linkOk 5 16 = true ∧ ready.power.identityDone = false ∧ ready.sec.booted = true ∧
      (let s : State := { ready with power := { identityDone := true } }
       s.power.identityDone = true) ∧
      (let s : State := { ready with mgmt := { identityDue := [] }, host := { ready.host with offers := [(0, 5, 16)] } }
       s.power.identityDone = false ∧ s.mgmt.identityDue = [] ∧ thas s.host.offers 0 = true ∧
         tget (0, 0) s.host.offers 0 = (5, 16)) ∧
      (let s : State := { ready with host := { ready.host with dual := true }, mgmt := { sideband := [(2, { masked := true, level := true })] } }
       s.host.dual = true ∧ Pre.still s ∧ (s.input 2).masked = true ∧ (s.input 2).stuck = false) ∧
      (standby { level := true } false).power.on = false ∧ ((standby { level := true } false).input 3).level = true ∧
      (standby {} true).power.outOfRange = true ∧ (standby {} false).power.outOfRange = false ∧
      (standby {} false).resets = [] ∧ ((standby {} false).input 3).level = false := by decide
theorem active8_region (l : List Nat) (r : Nat) :
    tget ({} : Region) (l.map fun k => (k, ({ st := .active, step := 18, sleptPeriod := false } : Region))) r = {} ∨
      tget ({} : Region) (l.map fun k => (k, ({ st := .active, step := 18, sleptPeriod := false } : Region))) r =
        { st := .active, step := 18, sleptPeriod := false } := by
  induction l with
  | nil => exact .inl rfl
  | cons a l ih =>
    by_cases h : a = r
    · exact .inr (by simp [tget, h])
    · simpa [tget, h] using ih
/-- Nothing awaits retirement where eight regions run. -/
theorem witness_plainPass (ps : Nat) : Pre.plainPass example426 (awake8 ps) := by
  refine ⟨rfl, rfl, rfl, rfl, rfl, rfl, show (0 : Nat) < 2999 by decide, ⟨rfl, rfl⟩, .inr (.inr rfl), fun _ => ⟨rfl, rfl, fun _ => rfl⟩, fun r => ?_⟩
  rcases active8_region (List.range 8) r with h | h
  · exact ⟨congrArg Region.retirePending h, congrArg (fun g => g.haul.pendingGroups) h⟩
  · exact ⟨congrArg Region.retirePending h, congrArg (fun g => g.haul.pendingGroups) h⟩
theorem witness_GovernorApportions :
    (awake8 1).mgmt.halted = false ∧ (awake8 1).power.on = true ∧ ((awake8 1).region 7).st = .active ∧
      (standby {} false).power.on = false ∧ (standby {} false).power.standby = true ∧
      (let s : State := { ready with mgmt := { halted := true } }; s.mgmt.halted = true) ∧
      27 * (7200 + 4000 + 3200) * 400 + 400 * 27 * 4500 ≤ 400 * 2500 * 250 := by decide
theorem witness_SleepLimiterShutdownAndService :
    Pre.sleepy 7 (dozing { st := .active, idleSince := some 4699 } {}) ∧
      ¬Pre.sleepy 7 (dozing { st := .active, idleSince := some 4700 } {}) ∧
      ((dozing { st := .active, entering := 2 } {}).region 7).entering = 2 ∧
      ((dozing {} {}).region 7).st = .sleep ∧ (dozing {} {}).host.powerState < 3 ∧ (dozing {} {}).power.shutdown = false ∧
      (let s : State := { dozing {} {} with power := { shutdown := true } }; (s.region 7).st = .sleep ∧ s.power.shutdown = true) ∧
      ((dozing { st := .waking } {}).region 7).held = [] ∧ Pre.still (dozing { st := .waking } {}) ∧
      (dozing { st := .waking } {}).ckpt.buddy = none ∧ (dozing { st := .waking } {}).ckpt.serving = [] ∧ (dozing {} {}).power.on = true ∧
      (dozing {} {}).power.fastActive = false ∧ (dozing {} {}).resets = [] ∧ Pre.noWide (dozing {} {}) := by decide
theorem witness_AssayWindows :
    (let m : Monitor := tget {} (dozing {} { capturing := true, start := 4000 }).mgmt.monitors 63
     m.capturing = true ∧ m.start + windowOf m.live0 ≤ (dozing {} {}).now ∧ m.pending = false) ∧
    (let m : Monitor := tget {} (dozing {} { capturing := true, start := 4001 }).mgmt.monitors 63
     m.capturing = true ∧ (dozing {} {}).now < m.start + windowOf m.live0) ∧
    (let m : Monitor := tget {} (dozing {} {}).mgmt.monitors 63
     m.capturing = false ∧ m.enabled = false) := by decide
set_option maxRecDepth 20000 in
/-- The worked example of R426: PS1 caps the module at 450 W; k is 0.7297, the grants are 231, 61 and 78 W,
DRAM gets 1.313 TB/s and a stack 14.59 GB/s, and every region's step is 14. -/
theorem test_governor_example :
    let s := awake8 1
    let a := s.grants example426
    s.effectiveCap = (450, 1) ∧ a.num * 10000 / a.den = 7297 ∧ a.watts 0 = 231 ∧ a.watts 1 = 61 ∧ a.watts 2 = 78 ∧
      a.dram / 1000 = 1313 ∧ a.seam 32 / 10 = 1459 ∧ s.stepFor example426 a 7 = 14 := by decide
set_option maxRecDepth 40000 in
/-- Host commands refuse an issuer outside R293 and R295 and take one at the ends of the ranges. -/
theorem test_illFormed_issuer0 : ∀ f ∈ ([
    fun c => .read c 1 1 1, fun c => .write c 1 1 1 [],
    fun c => .writeZeroes c 1 1 1, fun c => .deallocate c 1 [(0, 1)],
    fun c => .flush c 1, fun c => .verify c 1 1 1,
    fun c => .abort c 1 1, fun c => .identify c 1 1,
    fun c => .getLogPage c 1 1 4, fun c => .getFeatures c 1 1,
    fun c => .mediaEarlyWarning c 0 false, fun c => .patrolPeriod c 0 false,
    fun c => .portMode c 0 false, fun c => .encryptNewNamespaces c 0 false,
    fun c => .powerCap c 0 false, fun c => .powerManagement c 0 false,
    fun c => .autonomousPowerStateTransition c (.apst true) [(0, 1)], fun c => .hostMemoryBuffer c false 1,
    fun c => .formatNvm c 1 1, fun c => .sanitize c 1,
    fun c => .namespaceManagement c 1 1 1, fun c => .namespaceAttachment c 1 1 [],
    fun c => .createIoQueue c false 1 1 1 1, fun c => .asynchronousEventRequest c,
    fun c => .firmwareImageDownload c 1 { len := 1, bytes := [] }, fun c => .firmwareCommit c 1 1,
    fun c => .loadProgram c 1 1 { len := 1, bytes := [] }] : List (Src → Instr)),
    (f { fn := 34, sq := 0, cid := 0 }).wf = false ∧ (f { fn := 0, sq := 65, cid := 0 }).wf = false ∧
      (f { fn := 0, sq := 0, cid := 65536 }).wf = false ∧ (f { fn := 33, sq := 64, cid := 65535 }).wf = true := by decide
set_option maxRecDepth 40000 in
/-- Host commands refuse an issuer outside R293 and R295 and take one at the ends of the ranges. -/
theorem test_illFormed_issuer1 : ∀ f ∈ ([
    fun c => .unloadProgram c 1, fun c => .programActivationManagement c 1 false,
    fun c => .executeProgram c 1 { len := 1, bytes := [] }, fun c => .executeScan c 1 { len := 1, bytes := [] } 1 false,
    fun c => .memoryRead c 1 4, fun c => .memoryWrite c 1 { len := 1, bytes := [] },
    fun c => .memoryCopy c 1 1 1 1 false, fun c => .extentCreate c 0,
    fun c => .extentFree c 0 0, fun c => .extentPin c 0 0 0,
    fun c => .extentUnpin c 0 0, fun c => .extentPlace c 0 0 0,
    fun c => .tensorSpaceConfigure c 0, fun c => .quotaSet c 0 0,
    fun c => .hoistListAttach c 0 0 { len := 1, bytes := [] }, fun c => .directProgram c 0 0 { len := 1, bytes := [] } 0,
    fun c => .directRead c 0 0 0, fun c => .directErase c 0 0,
    fun c => .directMediaReserve c 0, fun c => .fabricConfigure c 0 0,
    fun c => .peerWindowAccept c 0 0 0, fun c => .peerWindowBind c 0 0 0 0 0 0,
    fun c => .peerWindowRelease c 0 0, fun c => .peerCopy c 0 0 0 0 0 0,
    fun c => .checkpointReserve c 0, fun c => .checkpointConfigure c 0 0 0 0 { len := 1, bytes := [] },
    fun c => .checkpointCut c 0 0 0] : List (Src → Instr)),
    (f { fn := 34, sq := 0, cid := 0 }).wf = false ∧ (f { fn := 0, sq := 65, cid := 0 }).wf = false ∧
      (f { fn := 0, sq := 0, cid := 65536 }).wf = false ∧ (f { fn := 33, sq := 64, cid := 65535 }).wf = true := by decide
set_option maxRecDepth 40000 in
/-- Host commands refuse an issuer outside R293 and R295 and take one at the ends of the ranges. -/
theorem test_illFormed_issuer2 : ∀ f ∈ ([
    fun c => .checkpointWait c 0 0, fun c => .checkpointRestore c 0 0 0,
    fun c => .takeover c 0, fun c => .interruptionReport c,
    fun c => .provisionBegin c, fun c => .certificateInstall c 0 0 { len := 1, bytes := [] },
    fun c => .lifeCycleNonce c, fun c => .lifeCycleTransition c 0 { len := 1, bytes := [] },
    fun c => .programSigningConfigure c 0 { len := 1, bytes := [] }] : List (Src → Instr)),
    (f { fn := 34, sq := 0, cid := 0 }).wf = false ∧ (f { fn := 0, sq := 65, cid := 0 }).wf = false ∧
      (f { fn := 0, sq := 0, cid := 65536 }).wf = false ∧ (f { fn := 33, sq := 64, cid := 65535 }).wf = true := by decide
set_option maxRecDepth 40000 in
/-- Bench 40, function 34, region or port 8, and die or port 2 do not exist. -/
theorem test_illFormed_bench : ∀ f ∈ ([
    .sequencerStep, .endComplete, .waitLimitExpire, .gateFire, .ld, .st, .add, .sub,
    .mul, .fma, .max, .min, .cmplt, .sel, .div, .sqrt,
    .rsqrt, .exp, .cvt, .rsum, .rmax, .rmin, .quant, .encode,
    .routePost, .crSet, .nop, .remoteRouteDeliver, .walkerSearch,
    fun b => .barrierRelease b 0, fun b => .arrayLoad b 0, fun b => .loadLatch b 0 1,
    fun b => .arrayStream b 0 true, fun b => .streamEnd b 0, fun b => .arrayDrain b 0,
    fun b => .drainEnd b 0, fun b => .walkerExpansion b 0, fun b => .walkerPageReadDone b 0 true] : List (Nat → Instr)), (f 40).wf = false ∧ (f 39).wf = true := by decide
set_option maxRecDepth 40000 in
theorem test_illFormed_function : ∀ f ∈ ([
    .powerStateIdleEntry, .controllerHealthStatusPoll, fun f => .sqDoorbell f 1 0,
    fun f => .controllerEnable f 0, .controllerReady, .controllerDisable,
    .nvmSubsystemReset, .functionLevelReset, fun f => .registerWrite f 0 false 0,
    fun f => .windowAccess f 0 false false 0, fun f => .kclkLowRead f 0, fun f => .scrubPassStart f 0,
    fun f => .haulEngineErrorClear f 0 0, fun f => .haulEngineReArm f 0 0, fun f => .lineDescriptorWrite f 0 0 0,
    fun f => .extentSnapshotSelect f 0 0, fun f => .portDisable f 0, fun f => .portEnable f 0,
    fun f => .eccTestArm f 0, fun f => .monitorConfigure f 0 0 0, fun f => .maxStepWrite f 0 0] : List (Nat → Instr)), (f 34).wf = false ∧ (f 33).wf = true := by decide
set_option maxRecDepth 40000 in
theorem test_illFormed_eight : ∀ f ∈ ([
    fun r => .haulEngineErrorClear 0 r 0, fun r => .haulEngineReArm 0 r 0, fun r => .lineDescriptorWrite 0 r 0 0,
    fun r => .maxStepWrite 0 r 0, fun r => .regionReset r 1 0 0 0, .burstGrant,
    fun r => .requestComplete r 0, .regionSleepEnter, .regionWake,
    .wakeComplete, fun p => .portDisable 0 p, fun p => .portEnable 0 p,
    fun p => .portTrain p true 0 15, fun p => .exchange p 0 0 0, fun p => .exchange 0 0 p 0,
    fun p => .retrain p none, fun p => .flitReceive p 0 true [], .replayTimeout,
    fun p => .state p 0 [] [], .alternatePortSwitch, .portDownPropose,
    .portUpPropose, fun x => .firmwareCommit c0 x 0, fun x => .firmwareCommit c0 0 x,
    fun x => .sanitize c0 x, fun x => .formatNvm c0 1 x, fun x => .getFeatures c0 0 x,
    fun x => .getCertificate 0 x 0 0, fun x => .challenge 0 x (List.replicate 32 0)] : List (Nat → Instr)), (f 8).wf = false ∧ (f 7).wf = true := by decide
set_option maxRecDepth 40000 in
theorem test_illFormed_two : ∀ f ∈ ([
    fun d => .extentFreeEffect d 0, fun d => .extentSnapshotSelect 0 d 0, .perstAssert,
    fun p => .perstDeassert p 5 16, fun d => .faceDieReset d 2 0 0 0, .dieFabricError,
    .moveStart, fun d => .spaceTileLanded d 0 true, .hoistEngineReArm,
    fun d => .firstTouchCopyDone d 0 0, .getVersion, fun p => .getCertificate p 0 0 0,
    fun p => .challenge p 0 (List.replicate 32 0), fun p => .getMeasurements p 1 (List.replicate 32 0), fun p => .heartbeat p 0,
    fun p => .programKeySet p 0 0 Buf.none] : List (Nat → Instr)), (f 2).wf = false ∧ (f 1).wf = true := by decide
set_option maxRecDepth 40000 in
/-- Every other operand at its upper bound is refused, and one below it is taken. -/
theorem test_illFormed_bound0 : ∀ e ∈ ([
    (2 ^ 32, fun x => .read c0 x 0 1), (2 ^ 64, fun x => .read c0 1 x 1),
    (65537, fun x => .read c0 1 0 x), (2 ^ 32, fun x => .write c0 x 0 1 []),
    (2 ^ 64, fun x => .write c0 1 x 1 []), (65537, fun x => .write c0 1 0 x []),
    (4096, fun x => .write c0 1 0 1 [(x, 1)]), (2 ^ 32, fun x => .writeZeroes c0 x 0 1),
    (2 ^ 64, fun x => .writeZeroes c0 1 x 1), (65537, fun x => .writeZeroes c0 1 0 x),
    (2 ^ 32, fun x => .deallocate c0 x [(0, 1)]), (2 ^ 64, fun x => .deallocate c0 1 [(x, 1)]),
    (2 ^ 32, fun x => .deallocate c0 1 [(0, x)]), (257, fun x => .deallocate c0 1 (List.replicate x (0, 1))),
    (2 ^ 32, fun x => .flush c0 x), (2 ^ 32, fun x => .verify c0 x 0 1),
    (2 ^ 64, fun x => .verify c0 1 x 1), (65537, fun x => .verify c0 1 0 x),
    (65, fun x => .abort c0 x 0), (65536, fun x => .abort c0 0 x),
    (256, fun x => .identify c0 x 0), (2 ^ 32, fun x => .identify c0 0 x),
    (256, fun x => .getLogPage c0 x 0 4), (2 ^ 64, fun x => .getLogPage c0 2 x 4),
    (2 ^ 34 + 1, fun x => .getLogPage c0 2 0 x), (256, fun x => .getFeatures c0 x 0),
    (32, fun x => .powerManagement c0 x false), (33, fun x => .autonomousPowerStateTransition c0 (.apst true) (List.replicate x (0, 0))),
    (32, fun x => .autonomousPowerStateTransition c0 (.apst true) [(x, 0)]), (2 ^ 24, fun x => .autonomousPowerStateTransition c0 (.apst true) [(0, x)]),
    (2 ^ 64, fun x => .hostMemoryBuffer c0 true x), (2 ^ 32, fun x => .formatNvm c0 x 0),
    (16, fun x => .namespaceManagement c0 x 0 1), (2 ^ 32, fun x => .namespaceManagement c0 0 x 1),
    (2 ^ 64, fun x => .namespaceManagement c0 0 0 x), (16, fun x => .namespaceAttachment c0 x 1 []),
    (2 ^ 32, fun x => .namespaceAttachment c0 0 x []), (34, fun x => .namespaceAttachment c0 0 1 [x]),
    (65536, fun x => .createIoQueue c0 true x 2 0 0), (65537, fun x => .createIoQueue c0 true 1 x 0 0),
    (65536, fun x => .createIoQueue c0 false 1 2 x 0), (4, fun x => .createIoQueue c0 false 1 2 1 x)] : List (Nat × (Nat → Instr))),
    (e.2 e.1).wf = false ∧ (e.2 (e.1 - 1)).wf = true := by decide
set_option maxRecDepth 40000 in
/-- Every other operand at its upper bound is refused, and one below it is taken. -/
theorem test_illFormed_bound1 : ∀ e ∈ ([
    (2 ^ 34, fun x => .firmwareImageDownload c0 x Buf.none), (4, fun x => .firmwareImageDownload c0 0 { len := 4, bytes := [(x, 1)] }),
    (65536, fun x => .loadProgram c0 x 1 Buf.none), (256, fun x => .loadProgram c0 0 x Buf.none),
    (4, fun x => .loadProgram c0 0 1 { len := 4, bytes := [(x, 1)] }), (65536, fun x => .unloadProgram c0 x),
    (65536, fun x => .programActivationManagement c0 x true), (65536, fun x => .executeProgram c0 x Buf.none),
    (4, fun x => .executeProgram c0 0 { len := 4, bytes := [(x, 1)] }), (65536, fun x => .executeScan c0 x Buf.none 0 false),
    (4, fun x => .executeScan c0 0 { len := 4, bytes := [(x, 1)] } 0 false), (2 ^ 32 + 1, fun x => .executeScan c0 0 Buf.none x false),
    (2 ^ 48, fun x => .memoryRead c0 x 1), (2 ^ 21 + 1, fun x => .memoryRead c0 0 x),
    (2 ^ 48, fun x => .memoryWrite c0 x { len := 1, bytes := [] }), (2 ^ 21 + 1, fun x => .memoryWrite c0 0 { len := x, bytes := [] }),
    (1, fun x => .memoryWrite c0 0 { len := 1, bytes := [(x, 1)] }), (2 ^ 48, fun x => .memoryCopy c0 x 1 0 1 true),
    (2 ^ 32, fun x => .memoryCopy c0 0 x 0 1 true), (2 ^ 64, fun x => .memoryCopy c0 0 1 x 1 true),
    (65537, fun x => .memoryCopy c0 0 1 0 x true), (65536, fun x => .extentFreeEffect 0 x),
    (4, fun x => .hoistListAttach c0 0 0 { len := 4, bytes := [(x, 1)] }), (4, fun x => .directProgram c0 0 0 { len := 4, bytes := [(x, 1)] } 0),
    (4, fun x => .checkpointConfigure c0 0 0 0 0 { len := 4, bytes := [(x, 1)] }), (4, fun x => .certificateInstall c0 0 0 { len := 4, bytes := [(x, 1)] }),
    (4, fun x => .lifeCycleTransition c0 0 { len := 4, bytes := [(x, 1)] }), (4, fun x => .programSigningConfigure c0 0 { len := 4, bytes := [(x, 1)] }),
    (256, fun x => .readNvmeMiDataStructure x), (256, fun x => .configurationGet x),
    (256, fun x => .configurationSet x 0), (65536, fun x => .vpdRead x 0),
    (65536, fun x => .vpdRead 0 x), (65536, fun x => .vpdWrite x []),
    (65536, fun x => .getCertificate 0 0 x 0), (65536, fun x => .getCertificate 0 0 0 x),
    (33, fun x => .challenge 0 0 (List.replicate x 0)), (33, fun x => .getMeasurements 0 1 (List.replicate x 0)),
    (256, fun x => .getMeasurements 0 x (List.replicate 32 0)), (2 ^ 32, fun x => .heartbeat 0 x),
    (2 ^ 32, fun x => .programKeySet 0 x 0 Buf.none), (4, fun x => .programKeySet 0 0 0 { len := 4, bytes := [(x, 1)] })] : List (Nat × (Nat → Instr))),
    (e.2 e.1).wf = false ∧ (e.2 (e.1 - 1)).wf = true := by decide
set_option maxRecDepth 40000 in
/-- Every other operand at its upper bound is refused, and one below it is taken. -/
theorem test_illFormed_bound2 : ∀ e ∈ ([
    (65, fun x => .sqDoorbell 0 x 0), (65536, fun x => .sqDoorbell 0 1 x),
    (2 ^ 26, fun x => .registerWrite 0 x false 0), (2 ^ 26, fun x => .windowAccess 0 x false false 0),
    (3, fun x => .kclkLowRead 0 x), (64, fun x => .lineDescriptorWrite 0 0 x 0),
    (64, fun x => .monitorConfigure 0 x 0 0), (6, fun x => .perstDeassert 0 x 16),
    (17, fun x => .perstDeassert 0 5 x), (4, fun x => .sidebandStuck x),
    (256, fun x => .regionReset 0 x 0 0 0), (256, fun x => .regionReset 0 1 x 0 0),
    (256, fun x => .regionReset 0 1 0 x 0), (256, fun x => .faceDieReset 0 x 0 0 0),
    (256, fun x => .faceDieReset 0 2 x 0 0), (256, fun x => .faceDieReset 0 2 0 x 0),
    (256, fun x => .moduleReset x 0), (256, fun x => .moduleReset 2 x),
    (6, fun x => .coldReset x), (160, fun x => .resetComplete [x] 0),
    (2 ^ 32, fun x => .resetComplete [] x), (4, fun x => .dramErasureModeEnter x 0),
    (16, fun x => .dramErasureModeEnter 0 x), (4, fun x => .secondDieErasureCriteria x 0),
    (16, fun x => .secondDieErasureCriteria 0 x), (13, fun x => .scrubRead x 0 0 0 false []),
    (40, fun x => .scrubRead 1 x 0 0 false []), (17, fun x => .scrubRead 1 0 0 0 false (List.replicate x 0)),
    (32, fun x => .barrierRelease 0 x), (4, fun x => .arrayLoad 0 x),
    (4, fun x => .loadLatch 0 x 1), (4, fun x => .arrayStream 0 x true),
    (4, fun x => .streamEnd 0 x), (4, fun x => .arrayDrain 0 x),
    (4, fun x => .drainEnd 0 x), (256, fun x => .walkerExpansion 0 x),
    (2 ^ 32, fun x => .walkerPageReadDone 0 x true), (64, fun x => .requestComplete 0 x),
    (32, fun x => .sievePage 0 x true), (65536, fun x => .spaceTileLanded 0 x true),
    (65536, fun x => .firstTouchCopyDone 0 x 0), (32768, fun x => .firstTouchCopyDone 0 0 x)] : List (Nat × (Nat → Instr))),
    (e.2 e.1).wf = false ∧ (e.2 (e.1 - 1)).wf = true := by decide
set_option maxRecDepth 40000 in
/-- Every other operand at its upper bound is refused, and one below it is taken. -/
theorem test_illFormed_bound3 : ∀ e ∈ ([
    (2 ^ 33, fun x => .flashReadComplete x 0 0), (6, fun x => .flashReadComplete 0 x 1),
    (65536, fun x => .flashReadComplete 0 0 x), (2 ^ 23, fun x => .readCountRefresh x),
    (2 ^ 23, fun x => .flashEraseComplete x), (2 ^ 23, fun x => .fold x),
    (2 ^ 33, fun x => .patrolRead x 0 0), (6, fun x => .patrolRead 0 x 1),
    (65536, fun x => .patrolRead 0 0 x), (32, fun x => .dieRetire x 0),
    (16, fun x => .dieRetire 0 x), (32, fun x => .stackRetire x),
    (32, fun x => .rebuildComplete x), (16, fun x => .portTrain 0 true x 0),
    (16, fun x => .portTrain 0 true 0 x), (16, fun x => .retrain 0 (some (x, 0))),
    (16, fun x => .retrain 0 (some (0, x))), (16, fun x => .flashReadComplete 0 5 x),
    (2 ^ 33, fun x => .mount [(x, 0, 0)]), (65536, fun x => .exchange 0 x 0 0),
    (2 ^ 32, fun x => .exchange 0 0 0 x), (65536, fun x => .data x 0 0 Buf.none .write),
    (2 ^ 32, fun x => .data 0 x 0 Buf.none .write), (2 ^ 48, fun x => .data 0 0 x Buf.none .write),
    (4, fun x => .data 0 0 0 { len := 4, bytes := [(x, 1)] } .write), (65536, fun x => .ack x 0 false false),
    (2 ^ 32, fun x => .ack 0 x false false), (2 ^ 32, fun x => .event x 0 1 0),
    (65536, fun x => .event 0 x 1 0), (256, fun x => .event 0 0 x 0),
    (2 ^ 32, fun x => .event 0 0 1 x), (2 ^ 32, fun x => .state 0 x [] []),
    (65536, fun x => .resync x 0), (2 ^ 32, fun x => .resync 0 x),
    (65536, fun x => .retransmitTimeout x), (65536, fun x => .routeTimeout x),
    (2 ^ 64, fun x => .takeoverCopyDone x 0 [] []), (2 ^ 64, fun x => .takeoverCopyDone 0 x [] []),
    (48, fun x => .thermalShutdown x), (64, fun x => .assayWindowClose x),
    (32, fun x => .seamLinkRetrain x)] : List (Nat × (Nat → Instr))),
    (e.2 e.1).wf = false ∧ (e.2 (e.1 - 1)).wf = true := by decide
set_option maxRecDepth 40000 in
/-- Too small a count, data out of canonical form or outside its buffer, and lists of the wrong length. -/
theorem test_illFormed_shape : ∀ i ∈ ([
    .read c0 1 0 0, .write c0 1 0 0 [],
    .write c0 1 0 1 [(3, 1), (2, 1)], .write c0 1 0 1 [(3, 0)],
    .writeZeroes c0 1 0 0, .deallocate c0 1 [],
    .verify c0 1 0 0, .getLogPage c0 2 0 3,
    .createIoQueue c0 true 1 0 0 0, .memoryRead c0 0 0,
    .memoryWrite c0 0 Buf.none, .memoryWrite c0 0 { len := 4, bytes := [(0, 0)] },
    .memoryCopy c0 0 1 0 0 true, .coldReset 0,
    .patrolRead 0 5 0, .flashReadComplete 0 5 0,
    .challenge 0 0 [], .getMeasurements 0 1 [],
    .keyExchange 0 [] false, .keyExchange 2 (List.replicate 1184 0) false,
    .flitReceive 0 0 true [(0, 0)], .managementPeriod { example426 with temps := [] },
    .takeoverCopyDone 1 0 [] [{ cut := 1, addr := 1, data := [] }], .takeoverCopyDone 1 0 [] [{ cut := 1, addr := 2 ^ 48, data := [] }],
    .takeoverCopyDone 1 0 [] [{ cut := 1, addr := 0, data := [(65536, 1)] }], .takeoverCopyDone 1 0 [] [{ cut := 1, addr := 0, data := [(1, 0)] }]] : List Instr), i.wf = false := by decide
set_option maxRecDepth 20000 in
/-- The example of chapter 2: the image is accepted, slot 0 passes by product 0 after 3 evaluations, slot 1 by
product 1 after 3, and slot 2 fails after 2. -/
theorem test_predicate_example :
    predCheck predicateExample 0 (some 80) = none ∧
      predEval predicateExample 0 ([23, 6, 0x0E, 50 + 50 * 2 ^ 32].getD · 0) = (some 0, 3) ∧
      predEval predicateExample 0 ([23, 9, 0x06, 150 + 250 * 2 ^ 32].getD · 0) = (some 1, 3) ∧
      predEval predicateExample 0 ([41, 6, 0x06, 150 + 450 * 2 ^ 32].getD · 0) = (none, 2) := by decide
/-- The example of Table 3.6: the tie 0x3F80_8000 narrows to BF16 away from zero. -/
theorem test_bf16_example : Fp.bf16Away 0x3F808000 = 0x3F810000 := by decide
/-- The example of R164: 0x8003_4000_1234 is die 1, slot 6, space tile 16,384, byte 0x1234. -/
theorem test_address_example :
    addrDie 0x800340001234 = 1 ∧ addrSlot 0x800340001234 = 6 ∧ addrTile 0x800340001234 = 16384 ∧
      tileAddr 1 6 16384 + 0x1234 = 0x800340001234 := by decide
/-- The examples of R34 and R330: coordinates (5, 2, 1) are module 293, whose neighbours are 294 and 37, and its
route to module 1,000 leaves by port 0. -/
theorem test_route_example :
    coordId 5 2 1 = 293 ∧ coordId 8 14 3 = 1000 ∧
      (let f : Fabric := { sizeX := 16, sizeY := 16, sizeZ := 16 }
       f.dimPort 293 1000 = some 0 ∧ f.neighbour 293 0 = 294 ∧ f.neighbour 293 5 = 37) := by decide
set_option maxRecDepth 20000 in
/-- The example of R435: window 5 holds 12 and 47 in bins 2 and 5; 300 opens window 6 in bin 31. -/
theorem test_monitor_example :
    let m : Monitor := { live0 := 0x000003E800050601#64, live1 := 0x0000000A00000000#64, capturing := true, start := 5000 }
    let x := (((m.roll 5 5000).take 12).roll 5 5999).take 47
    let y := (x.roll 5 6000).take 300
    (y.ring.map fun r => [r.windowStart, r.count, r.bins.getD 2 0, r.bins.getD 5 0]) = [[5000, 2, 1, 1]] ∧
      (y.ring.map fun r => [r.min, r.max, r.sum]) = [[12, 47, 59]] ∧
      y.start = 6000 ∧ y.count = 1 ∧ y.bins.getD 31 0 = 1 := by decide
/-- The example of R29: the window of bench 3 of region 1 on face die 1 starts at 0x0228_0000. -/
theorem test_window_example : regionBase 5 + 0x20000 * 4 = 0x2280000 := by decide
/-- The step of both invariants is taken: after reset, and by the boot chain at the front of the queue. -/
theorem witness_MemoriesStayCanonical :
    MemoriesCanonical State.reset ∧ ∃ t, step State.reset = .next t :=
  ⟨⟨by decide, fun _ => rfl⟩, _, rfl⟩
theorem witness_FusesOnlyGrow :
    LifeCycleSound owned.sec ∧ LifeCycleSound ({ lcRecord := List.replicate 31 3 } : Security) ∧
      ∃ t, step { owned with pending := [.lifeCycleNonce c0] } = .next t :=
  ⟨by decide, by decide, _, rfl⟩

end Sys2Proof.Tests
end

section
/-! PROOFS. MAP_EPOCH_PIN takes a pin or changes nothing (R57). -/

namespace Sys2Proof.Machine

theorem exec_mapEpochPin (i : Nat) (s : State) : exec (.mapEpochPin i) s = execMapEpochPin i s := rfl

/-- What MAP_EPOCH_PIN can do: nothing, or add one pin for scan `i`, which waits first while fewer than 16 pins are
held (R55, R57). -/
theorem execMapEpochPin_cases (i : Nat) (s : State) :
    execMapEpochPin i s = .next s ∨
    ∃ x rest t, execMapEpochPin i s = .next t ∧ s.scan i = some x ∧ s.flash.pinWait = i :: rest ∧
      s.flash.pins.length < 16 ∧ t.flash.pinWait = rest ∧
      t.flash.pins = s.flash.pins ++ [{ scan := i, nsid := x.nsid, seq := s.flash.jseq }] := by
  unfold execMapEpochPin
  split
  case h_1 x j rest hscan hwait =>
    split
    case isTrue h =>
      obtain ⟨rfl, hroom, -, -⟩ := h
      exact .inr ⟨x, rest, _, rfl, hscan, hwait, hroom, by simp, by simp⟩
    case isFalse => exact .inl rfl
  case h_2 => exact .inl rfl

/-- MAP_EPOCH_PIN leaves at most 16 pins where at most 16 were held. -/
theorem execMapEpochPin_pins_le (i : Nat) (s : State) (hpins : s.flash.pins.length ≤ 16) :
    ∃ t, execMapEpochPin i s = .next t ∧ t.flash.pins.length ≤ 16 := by
  obtain h | ⟨x, rest, t, h, -, -, hroom, -, hadd⟩ := execMapEpochPin_cases i s
  · exact ⟨s, h, hpins⟩
  · have hlen : t.flash.pins.length = s.flash.pins.length + 1 := by simp [hadd]
    exact ⟨t, h, by omega⟩

/-- With 16 pins held the scan waits (R57). -/
theorem execMapEpochPin_full (i : Nat) (s : State) (hfull : 16 ≤ s.flash.pins.length) :
    execMapEpochPin i s = .next s := by
  obtain h | ⟨_, _, _, -, -, -, hroom, -⟩ := execMapEpochPin_cases i s
  · exact h
  · omega

/-- A scan that does not wait first takes no pin (R57). -/
theorem execMapEpochPin_not_first {i j : Nat} {rest : List Nat} {s : State}
    (hwait : s.flash.pinWait = j :: rest) (hij : i ≠ j) : execMapEpochPin i s = .next s := by
  obtain h | ⟨_, _, _, -, -, hfirst, -⟩ := execMapEpochPin_cases i s
  · exact h
  · obtain ⟨rfl, -⟩ := List.cons.inj (hwait.symm.trans hfirst)
    exact absurd rfl hij

/-- Settles O14: a pin is added only for the scan that waits first, and only while fewer than 16 are held. -/
theorem atMostSixteenPins : Obligations.AtMostSixteenPins := by
  unfold Obligations.AtMostSixteenPins
  simp only [exec_mapEpochPin]
  exact ⟨execMapEpochPin_pins_le, execMapEpochPin_full,
    fun _ _ _ _ hwait hij => execMapEpochPin_not_first hwait hij⟩

end Sys2Proof.Machine
end

section
/-! PROOFS. A step that issues, what its actions leave alone, and the end of an execution with a fault (R118, R127,
R145). -/

namespace Sys2Proof.Machine

/-! ## What an operation on the benches leaves alone -/

theorem BenchOnly.refl (s : State) : BenchOnly s s := by constructor <;> rfl

theorem BenchOnly.trans {s t u : State} (h : BenchOnly s t) (k : BenchOnly t u) : BenchOnly s u :=
  ⟨k.pending.trans h.pending, k.mfg.trans h.mfg, k.clk.trans h.clk, k.host.trans h.host, k.ts.trans h.ts,
    k.flash.trans h.flash, k.scans.trans h.scans, k.fabric.trans h.fabric, k.ckpt.trans h.ckpt,
    k.sec.trans h.sec, k.mgmt.trans h.mgmt, k.power.trans h.power, k.resets.trans h.resets⟩

theorem modBench_benchOnly (s : State) (b : Nat) (f : Bench → Bench) : BenchOnly s (s.modBench b f) := by
  constructor <;> rfl

theorem modHaul_benchOnly (s : State) (r : Nat) (f : Haul → Haul) : BenchOnly s (s.modHaul r f) := by
  constructor <;> rfl

/-- Requests raised one line after the other change regions alone. -/
theorem foldl_modHaul_frame {α : Type} (r : Nat) (f : α → Haul → Haul) (l : List α) (s : State) :
    BenchOnly s (l.foldl (fun t x => t.modHaul r (f x)) s) ∧
      (l.foldl (fun t x => t.modHaul r (f x)) s).benches = s.benches :=
  List.foldlRecOn (motive := fun t => BenchOnly s t ∧ t.benches = s.benches) l _ ⟨.refl s, rfl⟩
    fun _ h x _ => ⟨h.1.trans (modHaul_benchOnly _ r (f x)), h.2⟩

/-! ## A step that issues (R118) -/

/-- The state in which a step that issues performs its actions: its skip is tested and its gate used up. -/
def State.readied (s : State) (b : Nat) : State :=
  (s.modSeq b fun q => { q with skipTested := true }).modBench b fun y =>
    { y with gate := { y.gate with fired := false } }

theorem readied_benchOnly (s : State) (b : Nat) : BenchOnly s (s.readied b) :=
  (modBench_benchOnly s b _).trans (modBench_benchOnly _ b _)

@[simp] theorem modSeq_bench_same (s : State) (b : Nat) (f : Sequencer → Sequencer) :
    (s.modSeq b f).bench b = { s.bench b with seq := f (s.bench b).seq } := by simp [State.modSeq]

theorem readied_bench (s : State) (b : Nat) : (s.readied b).bench b =
    { s.bench b with
      seq := { (s.bench b).seq with skipTested := true }
      gate := { (s.bench b).gate with fired := false } } := by
  simp [State.readied]

theorem fenceClear_modSeq (s : State) (b : Nat) (f : Sequencer → Sequencer) :
    (s.modSeq b f).fenceClear b = s.fenceClear b := by
  unfold State.fenceClear
  rw [modSeq_bench_same]
  rfl

/-- No wait of a step but the route queue, the gate and barriers looks at the sequencer (R128). -/
theorem stepWaits_modSeq (s : State) (b : Nat) (f : Sequencer → Sequencer) (w : StepWord) (g : Binding) :
    (s.modSeq b f).stepWaits b w g = s.stepWaits b w g := by
  unfold State.stepWaits
  rw [fenceClear_modSeq, modSeq_bench_same]
  rfl

/-- A bench that may treat its step treats it, and what waits is tried again when a command has ended. -/
theorem exec_sequencerStep_of_stepping {b : Nat} {g : Binding} {s : State} (h : Pre.stepping b g s) :
    exec (.sequencerStep b) s = .next (s.after (s.issueStep b g)) := by
  obtain ⟨hbind, hst, hawake, hbarrier, harriving, hfinishing, hrun⟩ := h
  show execSequencerStep b s = _
  simp [execSequencerStep, hbind, hst, hawake, hbarrier, harriving, hfinishing, hrun]

/-- A step that nothing holds back performs its actions, and its loads take their headers. -/
theorem issueStep_of_issues {b : Nat} {g : Binding} {s : State} (h : Pre.issues b g s) :
    s.issueStep b g =
      ((s.readied b).performStep b (s.bench b).step g).takeHeaders b (s.bench b).step g := by
  obtain ⟨-, hroute, hskip, hwaits, hgate⟩ := h
  have hword : ((s.bench b).step.readsRoute && (s.bench b).seq.routeQueue.isEmpty) = false := by
    simpa [List.isEmpty_iff, or_iff_not_imp_left] using hroute
  have hpassed : (!(s.bench b).seq.skipTested && (s.bench b).step.skips (s.bench b).seq) = false := by
    simpa [or_iff_not_imp_left] using hskip
  have hopen : ((s.bench b).step.gateWait && !(s.bench b).gate.fired) = false := by
    simpa [or_iff_not_imp_left] using hgate
  simp [State.issueStep, State.readied, stepWaits_modSeq, hword, hpassed, hwaits, hopen]

/-- A step without a LOAD has no header to take. -/
theorem takeHeaders_of_not_load {w : StepWord} (h : w.arrayOp ≠ 1) (s : State) (b : Nat) (g : Binding) :
    s.takeHeaders b w g = s := by
  simp [State.takeHeaders, h]

/-- The loads and raises of a step change its bench and regions alone. -/
theorem loadAndRaise_benchOnly (s : State) (b : Nat) (w : StepWord) (g : Binding) :
    BenchOnly s (s.loadAndRaise b w g) :=
  (modBench_benchOnly s b _).trans (foldl_modHaul_frame (regionOf b) _ _ _).1

/-- A step that loads no generator and no loop leaves its bench as it was. -/
theorem loadAndRaise_bench_of_no_load {w : StepWord} (hag : w.agCfgEn = false) (hloop : w.loopSetEn = false)
    (s : State) (b : Nat) (g : Binding) : (s.loadAndRaise b w g).bench b = s.bench b := by
  unfold State.loadAndRaise State.bench
  rw [(foldl_modHaul_frame (regionOf b) _ _ _).2]
  simp [State.modSeq, State.modBench, hag, hloop]

/-- A step counted, with its loads and raises performed: where its array action is taken. -/
def State.raised (s : State) (b : Nat) (w : StepWord) (g : Binding) : State :=
  (s.modBench b fun x => { x with seqSteps := x.seqSteps + 1 }).loadAndRaise b w g

/-- A fault of the array action ends the execution at the step (R118, R145). -/
theorem performStep_of_array_fault {s : State} {b : Nat} {w : StepWord} {g : Binding} {c : Nat}
    (h : (s.raised b w g).issueArray b w g = .error c) :
    s.performStep b w g = (s.raised b w g).benchFault b c (s.bench b).seq.pc := by
  unfold State.raised at h
  simp only [State.performStep, h]
  rfl

/-! ## The array action of a STREAM (R125, R127) -/

/-- Generators read the binding and the sequencer of their bench, and the program's parameters. -/
theorem agAddress_congr {s t : State} {b : Nat} (hbind : (t.bench b).bind = (s.bench b).bind)
    (hags : (t.bench b).seq.ags = (s.bench b).seq.ags) (hidx : (t.bench b).seq.loopIdx = (s.bench b).seq.loopIdx)
    (hhost : t.host = s.host) (ag lane align : Nat) : t.agAddress b ag lane align = s.agAddress b ag lane align := by
  simp [State.agAddress, State.prog, hbind, hags, hidx, hhost]

theorem agAddress_modArr (s : State) (b p : Nat) (f : Arr → Arr) (ag lane align : Nat) :
    (s.modArr b p f).agAddress b ag lane align = s.agAddress b ag lane align := by
  apply agAddress_congr <;> simp [State.modArr]

/-- A STREAM from an aligned address of T0 on an array without a LOAD gives fault 0x0F. -/
theorem arrayOpFor_stream_of_no_load {s : State} {b a x : Nat} {w : StepWord} {g : Binding} (hop : w.arrayOp = 2)
    (haddr : s.agAddress b w.srcAg a 64 = some (1, x)) (hload : thas (s.bench b).seq.tileAddr a = false) :
    s.arrayOpFor b w g a = .error 0x0F := by
  simp [State.arrayOpFor, hop, haddr, hload]

/-- A STREAM from an aligned address of T0 on an array with a LOAD is issued. -/
theorem arrayOpFor_stream_of_load {s : State} {b a x : Nat} {w : StepWord} {g : Binding} (hop : w.arrayOp = 2)
    (haddr : s.agAddress b w.srcAg a 64 = some (1, x)) (hload : thas (s.bench b).seq.tileAddr a = true) :
    s.arrayOpFor b w g a = .ok (.stream a x (w.physBank g a) w.rowFirst w.accFirst (w.rows (s.bench b).seq) w.fmt
      w.mode (some (tget (0, false) (s.bench b).seq.tileAddr a)) (s.bench b).seq.pc) := by
  simp [State.arrayOpFor, hop, haddr, hload]

/-- A STREAM whose addresses are all good ends with fault 0x0F at the first of its arrays without a LOAD, whatever it
has issued to those before. -/
theorem issueArrays_stream_of_no_load {b : Nat} {w : StepWord} {g : Binding} (hop : w.arrayOp = 2) :
    ∀ (places : List (Nat × Nat)) (s : State),
      (∀ e ∈ places, ∃ x, s.agAddress b w.srcAg e.1 64 = some (1, x)) →
      (∃ e ∈ places, thas (s.bench b).seq.tileAddr e.1 = false) →
      s.issueArrays b w g places = .error 0x0F
  | [], _, _, hmiss => by simp at hmiss
  | (a, p) :: rest, s, haddr, hmiss => by
    obtain ⟨⟨x, hx⟩, haddrRest⟩ := List.forall_mem_cons.mp haddr
    cases hload : thas (s.bench b).seq.tileAddr a with
    | false => simp [State.issueArrays, arrayOpFor_stream_of_no_load hop hx hload]
    | true =>
      have hmissRest : ∃ e ∈ rest, thas (s.bench b).seq.tileAddr e.1 = false := by simpa [hload] using hmiss
      rw [State.issueArrays, arrayOpFor_stream_of_load hop hx hload]
      show (s.modArr b p _).issueArrays b w g rest = _
      refine issueArrays_stream_of_no_load hop rest _ (fun e he => ?_) (by simpa [State.modArr] using hmissRest)
      rw [agAddress_modArr]
      exact haddrRest e he

theorem mem_places {w : StepWord} {g : Binding} {e : Nat × Nat} :
    e ∈ w.places g ↔ e.1 < 4 ∧ bitOf w.arrayMask e.1 = true ∧ e.2 = g.arrayMap.getD e.1 0 := by
  simp only [StepWord.places, List.mem_map, List.mem_filter, List.mem_range]
  constructor
  · rintro ⟨a, ⟨ha, hbit⟩, rfl⟩
    exact ⟨ha, hbit, rfl⟩
  · rintro ⟨ha, hbit, hp⟩
    exact ⟨e.1, ⟨ha, hbit⟩, Prod.ext rfl hp.symm⟩

/-- The STREAM of one to 256 rows of a step whose addresses are all good and one of whose arrays has had no LOAD gives
fault 0x0F (R127). -/
theorem issueArray_stream_of_no_load {s : State} {b : Nat} {w : StepWord} {g : Binding} (hop : w.arrayOp = 2)
    (hlow : 1 ≤ w.rows (s.bench b).seq) (hhigh : w.rows (s.bench b).seq ≤ 256)
    (haddr : ∀ a, a < 4 → bitOf w.arrayMask a = true → ∃ x, s.agAddress b w.srcAg a 64 = some (1, x))
    (hmiss : ∃ a, a < 4 ∧ bitOf w.arrayMask a = true ∧ thas (s.bench b).seq.tileAddr a = false) :
    s.issueArray b w g = .error 0x0F := by
  have hrows : ¬256 < w.rows (s.bench b).seq ∧ w.rows (s.bench b).seq ≠ 0 := by omega
  obtain ⟨a, ha, hbit, hload⟩ := hmiss
  have hplaces : s.issueArrays b w g (w.places g) = .error 0x0F :=
    issueArrays_stream_of_no_load hop _ s
      (fun e he => haddr e.1 (mem_places.mp he).1 (mem_places.mp he).2.1)
      ⟨(a, g.arrayMap.getD a 0), mem_places.mpr ⟨ha, hbit, rfl⟩, hload⟩
  simp [State.issueArray, hop, hrows, hplaces]

/-! ## The end of an execution with a fault (R145) -/

/-- What the end of an execution leaves as it was once its benches have stopped: it changes regions, programs and tier
managers. -/
structure EndsFrom (s t : State) : Prop where
  benches : t.benches = s.benches
  pending : t.pending = s.pending
  ops : t.host.ops = s.host.ops
  completions : t.host.completions = s.host.completions
  ctl : ∀ f, t.ctl f = s.ctl f
  mem : t.ts.mem = s.ts.mem
  flash : t.flash = s.flash
  fabric : t.fabric = s.fabric
  ckpt : t.ckpt = s.ckpt
  sec : t.sec = s.sec

theorem EndsFrom.refl (s : State) : EndsFrom s s := by constructor <;> simp

theorem EndsFrom.trans {s t u : State} (h : EndsFrom s t) (k : EndsFrom t u) : EndsFrom s u :=
  ⟨k.benches.trans h.benches, k.pending.trans h.pending, k.ops.trans h.ops, k.completions.trans h.completions,
    fun f => (k.ctl f).trans (h.ctl f), k.mem.trans h.mem, k.flash.trans h.flash, k.fabric.trans h.fabric,
    k.ckpt.trans h.ckpt, k.sec.trans h.sec⟩

theorem modProg_endsFrom (s : State) (k : Nat) (f : Prog → Prog) : EndsFrom s (s.modProg k f) := by
  constructor <;> intros <;> rfl

theorem forgetWaits_endsFrom (s : State) (p : Waiter → Bool) : EndsFrom s (s.forgetWaits p) := by
  constructor <;> intros <;> rfl

theorem modRegion_endsFrom (s : State) (r : Nat) (f : Region → Region) : EndsFrom s (s.modRegion r f) := by
  constructor <;> intros <;> rfl

theorem foldl_busy_endsFrom (l : List Nat) (s : State) :
    EndsFrom s (l.foldl (fun t b => t.busy (regionOf b)) s) :=
  List.foldlRecOn (motive := EndsFrom s) l _ (.refl s) fun t h b _ =>
    h.trans (modRegion_endsFrom t (regionOf b) _)

theorem discardRequests_endsFrom (s : State) (k : Nat) : EndsFrom s (s.discardRequests k) :=
  List.foldlRecOn (motive := EndsFrom s) (List.range 8) _ (.refl s) fun t h r _ =>
    h.trans (modRegion_endsFrom t r _)

theorem endFetch_endsFrom (s : State) (k : Nat) : EndsFrom s (s.endFetch k) := by
  unfold State.endFetch
  split
  · exact .refl s
  · constructor <;> intros <;> rfl

/-- The benches that the end of program `k`'s execution with fault `code` of bench `fb` stops (R145). -/
def State.benchesFaulted (s : State) (k fb code pc : Nat) : State :=
  (s.benchesOf k).foldl (fun t b => t.modBench b fun x =>
    if b = fb then
      { x.stopped .faulted true with seq := { (x.stopped .faulted true).seq with faultCode := code, faultPc := pc } }
    else if x.seq.st = .ended then x else x.stopped .bound true) s

theorem benchesFaulted_benchOnly (s : State) (k fb code pc : Nat) :
    BenchOnly s (s.benchesFaulted k fb code pc) :=
  List.foldlRecOn (motive := BenchOnly s) (s.benchesOf k) _ (.refl s) fun t h b _ =>
    h.trans (modBench_benchOnly t b _)

/-- After each bench of a list has been changed in its own way, a bench of the list has what its change ensures. -/
theorem foldl_modBench_of_mem {P : Bench → Prop} {b : Nat} {f : Nat → Bench → Bench} (hP : ∀ x, P (f b x))
    (s : State) (l : List Nat) (hb : b ∈ l) : P ((l.foldl (fun t y => t.modBench y (f y)) s).bench b) := by
  induction l using List.reverseRecOn with
  | nil => simp at hb
  | append_singleton l y ih =>
    rw [List.foldl_concat]
    by_cases hy : b = y
    · subst hy
      rw [modBench_bench_same]
      exact hP _
    · rw [modBench_bench_other _ _ _ _ hy]
      exact ih (by simpa [hy] using hb)

/-- The bench that faulted is left FAULTED with its code and pc (R145). -/
theorem benchesFaulted_bench (s : State) {k fb : Nat} (code pc : Nat) (h : fb ∈ s.benchesOf k) :
    ((s.benchesFaulted k fb code pc).bench fb).seq.st = .faulted ∧
      ((s.benchesFaulted k fb code pc).bench fb).seq.faultCode = code ∧
      ((s.benchesFaulted k fb code pc).bench fb).seq.faultPc = pc :=
  foldl_modBench_of_mem (P := fun x => x.seq.st = .faulted ∧ x.seq.faultCode = code ∧ x.seq.faultPc = pc)
    (fun x => by simp [Bench.stopped]) s _ h

/-- Besides the benches stopped, an execution's end with a fault changes regions, programs and tier managers alone. -/
theorem stopExecution_endsFrom (s : State) (k fb code pc : Nat) :
    EndsFrom (s.benchesFaulted k fb code pc) (s.stopExecution k true (some (fb, code, pc))) :=
  ((((foldl_busy_endsFrom _ _).trans (forgetWaits_endsFrom _ _)).trans (discardRequests_endsFrom _ k)).trans
    (endFetch_endsFrom _ k)).trans (modProg_endsFrom _ k _)

theorem stopExecution_running (s : State) (k : Nat) (abandon : Bool) (fault : Option (Nat × Nat × Nat)) :
    ((s.stopExecution k abandon fault).prog k).running = none := by
  simp [State.stopExecution]

/-- The one outstanding command completed: its entry is posted and nothing is outstanding. -/
theorem finish_host_of_single {s : State} {o : Op} (hops : s.host.ops = [o]) (hrdy : (s.ctl o.src.fn).rdy = true)
    (st : Status) (dw0 : Word) :
    (s.finish o.id st dw0).host.ops = [] ∧
      (s.finish o.id st dw0).host.programs = s.host.programs ∧
      (s.finish o.id st dw0).host.completions = s.host.completions ++ [{ src := o.src, status := st, dw0 := dw0 }] := by
  have hfind : s.op o.id = some o := by simp [State.op, hops]
  have hready : ((s.dropOp o.id).ctl o.src.fn).rdy = true := hrdy
  simp only [State.finish, hfind]
  rw [post_host _ _ _ hready]
  simp [State.dropOp, hops]

theorem finish_core (s : State) (i : Nat) (st : Status) (dw0 : Word) : CoreSame s (s.finish i st dw0) := by
  unfold State.finish
  split
  · constructor <;> rfl
  · next o _ =>
    obtain ⟨pending, mfg, clk, benches, ts, flash, scans, fabric, ckpt, sec, power, resets⟩ :=
      (post_core (s.dropOp i) { src := o.src, status := st, dw0 := dw0 } o.since).1
    exact ⟨pending, mfg, clk, benches, ts, flash, scans, fabric, ckpt, sec, power, resets⟩

/-- A fault on a bench of the execution for the one outstanding command ends that execution (R145). -/
theorem benchFault_faulted {b : Nat} {g : Binding} {o : Op} {s : State} (h : Pre.execution b g o s) (code pc : Nat) :
    Faulted b g o code pc s (s.benchFault b code pc) := by
  obtain ⟨hbind, hmem, hrun, hops, -, hrdy⟩ := h
  have hfault : s.benchFault b code pc = (s.stopExecution g.prog true (some (b, code, pc))).finish o.id
      (.vendor 0xC1) (faultDword code g.logical pc) := by
    simp [State.benchFault, hbind, State.endExecution, hrun]
  have hstop := benchesFaulted_benchOnly s g.prog b code pc
  have hrest := stopExecution_endsFrom s g.prog b code pc
  have hopsNow : (s.stopExecution g.prog true (some (b, code, pc))).host.ops = [o] := by
    rw [hrest.ops, hstop.host, hops]
  have hrdyNow : ((s.stopExecution g.prog true (some (b, code, pc))).ctl o.src.fn).rdy = true := by
    rw [hrest.ctl, State.ctl, hstop.host]
    exact hrdy
  obtain ⟨hended, hprograms, hposts⟩ :=
    finish_host_of_single hopsNow hrdyNow (.vendor 0xC1) (faultDword code g.logical pc)
  have hcore := finish_core (s.stopExecution g.prog true (some (b, code, pc))) o.id (.vendor 0xC1)
    (faultDword code g.logical pc)
  rw [← hfault] at hended hprograms hposts hcore
  have hbench : (s.benchFault b code pc).bench b = (s.benchesFaulted g.prog b code pc).bench b := by
    rw [State.bench, hcore.benches, hrest.benches, State.bench]
  have hidle : ((s.benchFault b code pc).prog g.prog).running = none := by
    rw [State.prog, hprograms]
    exact stopExecution_running s g.prog true _
  obtain ⟨hst, hcode, hpc⟩ := benchesFaulted_bench s code pc hmem
  exact {
    posted := by rw [Posts, hposts, hrest.completions, hstop.host]
    ops := hended
    idle := hidle
    st := by rw [hbench, hst]
    code := by rw [hbench, hcode]
    pc := by rw [hbench, hpc]
    mem := by rw [hcore.ts, hrest.mem, hstop.ts]
    flash := by rw [hcore.flash, hrest.flash, hstop.flash]
    fabric := by rw [hcore.fabric, hrest.fabric, hstop.fabric]
    ckpt := by rw [hcore.ckpt, hrest.ckpt, hstop.ckpt]
    sec := by rw [hcore.sec, hrest.sec, hstop.sec]
    pending := by rw [hcore.pending, hrest.pending, hstop.pending] }

/-! ## A step whose array action faults -/

/-- What a step has done to benches and regions before its fault is not seen in how the execution has ended. -/
theorem faulted_of_benchOnly {b : Nat} {g : Binding} {o : Op} {code pc : Nat} {s t u : State} (h : BenchOnly s t)
    (k : Faulted b g o code pc t u) : Faulted b g o code pc s u where
  posted := k.posted.trans (by rw [h.host])
  ops := k.ops
  idle := k.idle
  st := k.st
  code := k.code
  pc := k.pc
  mem := k.mem.trans (by rw [h.ts])
  flash := k.flash.trans h.flash
  fabric := k.fabric.trans h.fabric
  ckpt := k.ckpt.trans h.ckpt
  sec := k.sec.trans h.sec
  pending := k.pending.trans h.pending

/-- An execution goes on while its command and its bench's binding stay. -/
theorem execution_of_benchOnly {b : Nat} {g : Binding} {o : Op} {s t : State} (h : BenchOnly s t)
    (hbind : (t.bench b).bind = (s.bench b).bind) (k : Pre.execution b g o s) : Pre.execution b g o t := by
  simpa only [Pre.execution, State.benchesOf, State.prog, State.ctl, hbind, h.host, h.fabric] using k

/-- With nothing left outstanding and no write held, the end of a command sets nothing else going. -/
theorem after_of_faulted {b : Nat} {g : Binding} {o : Op} {code pc : Nat} {s t : State}
    (h : Pre.execution b g o s) (k : Faulted b g o code pc s t) : s.after t = t := by
  obtain ⟨-, -, -, -, hheld, -⟩ := h
  have hnone : t.host.ops.length + t.fabric.heldWrites.length = 0 := by simp [k.ops, k.fabric, hheld]
  simp [State.after, State.settle, hnone, State.settleRounds]

theorem readied_raised_benchOnly (s : State) (b : Nat) (w : StepWord) (g : Binding) :
    BenchOnly s ((s.readied b).raised b w g) :=
  (readied_benchOnly s b).trans ((modBench_benchOnly _ b _).trans (loadAndRaise_benchOnly _ b w g))

/-- Where a step loads no generator and no loop, its array action finds its bench as it stood, the step counted. -/
theorem readied_raised_bench {w : StepWord} (hag : w.agCfgEn = false) (hloop : w.loopSetEn = false) (s : State)
    (b : Nat) (g : Binding) : ((s.readied b).raised b w g).bench b =
      { s.bench b with
        seq := { (s.bench b).seq with skipTested := true }
        gate := { (s.bench b).gate with fired := false }
        seqSteps := (s.bench b).seqSteps + 1 } := by
  rw [State.raised, loadAndRaise_bench_of_no_load hag hloop, modBench_bench_same, readied_bench]

/-- A step other than a LOAD that issues in the execution for the one outstanding command, and whose array action
faults, ends that execution with the fault at the step. -/
theorem exec_sequencerStep_of_array_fault {b : Nat} {g : Binding} {o : Op} {s : State} {c : Nat}
    (hissues : Pre.issues b g s) (hexec : Pre.execution b g o s) (hload : (s.bench b).step.arrayOp ≠ 1)
    (hag : (s.bench b).step.agCfgEn = false) (hloop : (s.bench b).step.loopSetEn = false)
    (hfault : ((s.readied b).raised b (s.bench b).step g).issueArray b (s.bench b).step g = .error c) :
    ∃ t, exec (.sequencerStep b) s = .next t ∧ Faulted b g o c (s.bench b).seq.pc s t := by
  have hsame := readied_raised_benchOnly s b (s.bench b).step g
  have hbench := readied_raised_bench hag hloop s b g
  have hends := faulted_of_benchOnly hsame
    (benchFault_faulted (execution_of_benchOnly hsame (by rw [hbench]) hexec) c (s.bench b).seq.pc)
  refine ⟨_, ?_, hends⟩
  have hpc : ((s.readied b).bench b).seq.pc = (s.bench b).seq.pc := by rw [readied_bench]
  rw [exec_sequencerStep_of_stepping hissues.1, issueStep_of_issues hissues, takeHeaders_of_not_load hload,
    performStep_of_array_fault hfault, hpc, after_of_faulted hexec hends]

/-- Settles O22: the array action of the STREAM finds its bench as it stood, so it gives fault 0x0F, which ends the
execution before any later action of the step. -/
theorem streamWithoutLoadFaults : Obligations.StreamWithoutLoadFaults := by
  unfold Obligations.StreamWithoutLoadFaults
  intro b g o s hissues hexec hop hag hloop hlow hhigh haddr hmiss
  have hbench := readied_raised_bench hag hloop s b g
  have hrows : ∀ w : StepWord, w.rows (((s.readied b).raised b (s.bench b).step g).bench b).seq =
      w.rows (s.bench b).seq := fun w => by rw [hbench]; rfl
  have hgen : ∀ a, ((s.readied b).raised b (s.bench b).step g).agAddress b (s.bench b).step.srcAg a 64 =
      s.agAddress b (s.bench b).step.srcAg a 64 := fun a =>
    agAddress_congr (by rw [hbench]) (by rw [hbench]) (by rw [hbench])
      (readied_raised_benchOnly s b (s.bench b).step g).host _ a 64
  refine exec_sequencerStep_of_array_fault hissues hexec (by simp [hop]) hag hloop
    (issueArray_stream_of_no_load hop ?_ ?_ ?_ ?_)
  · rwa [hrows]
  · rwa [hrows]
  · simpa only [hgen] using haddr
  · rwa [hbench]

end Sys2Proof.Machine
end

section
/-! PROOFS. A search launched on a retired walker ends the execution (R239). -/

namespace Sys2Proof.Machine

/-! ## What the actions of a step before its walker launch keep (R118) -/

/-- From `s` to `t` nothing has changed but benches and regions, and bench `b` has its binding and its walker as it
had them: what every action of a step on `b` does before the walker launch. -/
structure KeepsWalker (b : Nat) (s t : State) : Prop where
  only : BenchOnly s t
  bind : (t.bench b).bind = (s.bench b).bind
  walker : (t.bench b).walker = (s.bench b).walker

theorem KeepsWalker.refl (b : Nat) (s : State) : KeepsWalker b s s := ⟨.refl s, rfl, rfl⟩

theorem KeepsWalker.trans {b : Nat} {s t u : State} (h : KeepsWalker b s t) (k : KeepsWalker b t u) :
    KeepsWalker b s u :=
  ⟨h.only.trans k.only, k.bind.trans h.bind, k.walker.trans h.walker⟩

/-- A change of the bench that keeps its binding and its walker. -/
theorem modBench_keepsWalker {s : State} {b : Nat} {f : Bench → Bench} (hbind : (f (s.bench b)).bind = (s.bench b).bind)
    (hwalker : (f (s.bench b)).walker = (s.bench b).walker) : KeepsWalker b s (s.modBench b f) :=
  ⟨modBench_benchOnly s b f, by rw [modBench_bench_same, hbind], by rw [modBench_bench_same, hwalker]⟩

theorem modSeq_keepsWalker (s : State) (b : Nat) (f : Sequencer → Sequencer) : KeepsWalker b s (s.modSeq b f) :=
  modBench_keepsWalker rfl rfl

theorem modArr_keepsWalker (s : State) (b a : Nat) (f : Arr → Arr) : KeepsWalker b s (s.modArr b a f) :=
  modBench_keepsWalker rfl rfl

theorem readied_keepsWalker (s : State) (b : Nat) : KeepsWalker b s (s.readied b) :=
  (modSeq_keepsWalker s b _).trans (modBench_keepsWalker rfl rfl)

/-- Where the benches have not changed, bench `b` has kept its binding and its walker. -/
theorem BenchOnly.keepsWalker {s t : State} (honly : BenchOnly s t) (hbenches : t.benches = s.benches) (b : Nat) :
    KeepsWalker b s t :=
  ⟨honly, by rw [State.bench, hbenches, State.bench], by rw [State.bench, hbenches, State.bench]⟩

/-- Generators and loops are the sequencer's, and requests raised change no bench. -/
theorem loadAndRaise_keepsWalker (s : State) (b : Nat) (w : StepWord) (g : Binding) :
    KeepsWalker b s (s.loadAndRaise b w g) :=
  have hraise := foldl_modHaul_frame (regionOf b) _ _ _
  (modSeq_keepsWalker s b _).trans (hraise.1.keepsWalker hraise.2 b)

theorem raised_keepsWalker (s : State) (b : Nat) (w : StepWord) (g : Binding) :
    KeepsWalker b s (s.raised b w g) :=
  (modBench_keepsWalker rfl rfl).trans (loadAndRaise_keepsWalker _ b w g)

/-- Operations put into array queues, with the tile addresses that their LOADs set. -/
theorem issueArrays_keepsWalker {b : Nat} {w : StepWord} {g : Binding} :
    ∀ (places : List (Nat × Nat)) {s t : State}, s.issueArrays b w g places = .ok t → KeepsWalker b s t
  | [], s, t, h => by
    obtain rfl : s = t := Except.ok.inj h
    exact .refl b s
  | (a, p) :: rest, s, t, h => by
    simp only [State.issueArrays] at h
    split at h
    · contradiction
    · refine KeepsWalker.trans ?_ (issueArrays_keepsWalker rest h)
      split
      · exact (modArr_keepsWalker s b p _).trans (modSeq_keepsWalker _ b _)
      · exact modArr_keepsWalker s b p _

theorem issueArray_keepsWalker {s t : State} {b : Nat} {w : StepWord} {g : Binding}
    (h : s.issueArray b w g = .ok t) : KeepsWalker b s t := by
  unfold State.issueArray at h
  split at h
  · obtain rfl : s = t := Except.ok.inj h
    exact .refl b s
  · split at h
    · contradiction
    · split at h
      · obtain rfl : s = t := Except.ok.inj h
        exact .refl b s
      · exact issueArrays_keepsWalker _ h

theorem issueVector_keepsWalker {s t : State} {b : Nat} {w : StepWord} (h : s.issueVector b w = .ok t) :
    KeepsWalker b s t := by
  unfold State.issueVector at h
  split at h
  · split at h
    · contradiction
    · obtain rfl := Except.ok.inj h
      exact modBench_keepsWalker rfl rfl
  · obtain rfl : s = t := Except.ok.inj h
    exact .refl b s

/-- Up to its walker launch a step keeps the binding and the walker of its bench. -/
theorem issueVector_of_readied_keepsWalker {s s1 s2 : State} {b : Nat} {w : StepWord} {g : Binding}
    (harray : ((s.readied b).raised b w g).issueArray b w g = .ok s1) (hvector : s1.issueVector b w = .ok s2) :
    KeepsWalker b s s2 :=
  (readied_keepsWalker s b).trans <| (raised_keepsWalker _ b w g).trans <|
    (issueArray_keepsWalker harray).trans (issueVector_keepsWalker hvector)

/-! ## A step whose walker launch faults -/

/-- A fault of the walker launch ends the execution at the step (R118, R145). -/
theorem performStep_of_walker_fault {s s1 s2 : State} {b : Nat} {w : StepWord} {g : Binding} {c : Nat}
    (harray : (s.raised b w g).issueArray b w g = .ok s1) (hvector : s1.issueVector b w = .ok s2)
    (hfault : s2.issueWalker b w = .error c) :
    s.performStep b w g = s2.benchFault b c (s.bench b).seq.pc := by
  unfold State.raised at harray
  simp only [State.performStep, harray, hvector, hfault]

/-- A launch on a retired walker gives fault 0x11 (R239). -/
theorem issueWalker_of_retired {s : State} {b : Nat} {w : StepWord} (hlaunch : w.walkLaunch = true)
    (hretired : (s.bench b).walker.retired = true) : s.issueWalker b w = .error 0x11 := by
  simp [State.issueWalker, hlaunch, hretired]

/-! ## The loads of a step that has faulted (R91, R145) -/

/-- A bench stopped with its operations abandoned has none waiting in its arrays. -/
theorem stopped_queue (x : Bench) (st : SeqState) (a : Nat) :
    (tget {} (x.stopped st true).arrays a).queue = [] := by
  have hread : tget {} (x.stopped st true).arrays a = (tget {} x.arrays a).abandoned :=
    tget_map {} x.arrays a Arr.abandoned rfl
  rw [hread, Arr.abandoned]

/-- A fault of a bench leaves no operation waiting in its arrays: they go with the execution. -/
theorem benchFault_queue {b : Nat} {g : Binding} {o : Op} {s : State} (h : Pre.execution b g o s)
    (code pc a : Nat) : ((s.benchFault b code pc).arr b a).queue = [] := by
  obtain ⟨hbind, hmem, hrun, -⟩ := h
  have hfault : s.benchFault b code pc = (s.stopExecution g.prog true (some (b, code, pc))).finish o.id
      (.vendor 0xC1) (faultDword code g.logical pc) := by
    simp [State.benchFault, hbind, State.endExecution, hrun]
  have hbench : (s.benchFault b code pc).bench b = (s.benchesFaulted g.prog b code pc).bench b := by
    rw [hfault, State.bench, (finish_core _ _ _ _).benches, (stopExecution_endsFrom s g.prog b code pc).benches,
      State.bench]
  rw [State.arr, hbench]
  exact foldl_modBench_of_mem (P := fun x => (tget {} x.arrays a).queue = [])
    (fun x => by simpa using stopped_queue x .faulted a) s _ hmem

/-- Where no operation waits in the arrays of a bench, no header is taken. -/
theorem takeHeaders_of_queues_nil {s : State} {b : Nat} (h : ∀ a, (s.arr b a).queue = []) (w : StepWord)
    (g : Binding) : s.takeHeaders b w g = s := by
  unfold State.takeHeaders
  split
  · exact List.foldlRecOn (motive := fun t => t = s) (w.places g) _ rfl fun t ht e _ => by
      subst ht
      simp [State.takeHeader, h]
  · rfl

/-- A step that issues in the execution for the one outstanding command, and whose walker launch faults after its
array action and its vector launch, ends that execution with the fault at the step. -/
theorem exec_sequencerStep_of_walker_fault {b : Nat} {g : Binding} {o : Op} {s s1 s2 : State} {c : Nat}
    (hissues : Pre.issues b g s) (hexec : Pre.execution b g o s)
    (harray : ((s.readied b).raised b (s.bench b).step g).issueArray b (s.bench b).step g = .ok s1)
    (hvector : s1.issueVector b (s.bench b).step = .ok s2)
    (hfault : s2.issueWalker b (s.bench b).step = .error c) :
    ∃ t, exec (.sequencerStep b) s = .next t ∧ Faulted b g o c (s.bench b).seq.pc s t := by
  have hkeeps := issueVector_of_readied_keepsWalker harray hvector
  have hexecNow := execution_of_benchOnly hkeeps.only hkeeps.bind hexec
  have hends := faulted_of_benchOnly hkeeps.only (benchFault_faulted hexecNow c (s.bench b).seq.pc)
  have hpc : ((s.readied b).bench b).seq.pc = (s.bench b).seq.pc := by rw [readied_bench]
  refine ⟨_, ?_, hends⟩
  rw [exec_sequencerStep_of_stepping hissues.1, issueStep_of_issues hissues,
    performStep_of_walker_fault harray hvector hfault, hpc,
    takeHeaders_of_queues_nil (benchFault_queue hexecNow c _), after_of_faulted hexec hends]

/-! ## A fault found by a unit -/

theorem unitStop_bind (s : State) (x : Site) : ((s.unitStop x).bench x.bench).bind = (s.bench x.bench).bind := by
  rw [State.unitStop, modBench_bench_same]
  split <;> rfl

/-- A fault found at a site of the execution for the one outstanding command ends that execution (R145). -/
theorem siteFault_faulted {x : Site} {g : Binding} {o : Op} {s : State} (h : Pre.execution x.bench g o s)
    (code : Nat) : Faulted x.bench g o code x.pc s (s.siteFault x code) := by
  have hstop : BenchOnly s (s.unitStop x) := modBench_benchOnly s x.bench _
  exact faulted_of_benchOnly hstop
    (benchFault_faulted (execution_of_benchOnly hstop (unitStop_bind s x) h) code x.pc)

/-- A search that a walker has not begun when it is retired ends with fault 0x11 (R239). -/
theorem exec_walkerSearch_of_retired {b a sp pc : Nat} {s : State}
    (hlaunch : (s.bench b).walker.launch = some (a, sp, pc)) (hretired : (s.bench b).walker.retired = true)
    (hawake : s.benchAwake b = true) :
    exec (.walkerSearch b) s =
      .next (s.after (s.siteFault { bench := b, pc := pc, walker := true } 0x11)) := by
  show execWalkerSearch b s = _
  simp [execWalkerSearch, hlaunch, hretired, hawake]

/-- Settles O35: the actions before the walker launch leave the walker retired, so the launch gives fault 0x11, and so
does the search that it has not begun. -/
theorem retiredWalkerFaults : Obligations.RetiredWalkerFaults := by
  unfold Obligations.RetiredWalkerFaults
  refine ⟨fun b g o s1 s2 s hissues hexec hlaunch hretired harray hvector => ?_,
    fun b g o a sp pc s hlaunch hretired hawake hexec => ?_⟩
  · have hkeeps := issueVector_of_readied_keepsWalker harray hvector
    exact exec_sequencerStep_of_walker_fault hissues hexec harray hvector
      (issueWalker_of_retired hlaunch (by rw [hkeeps.walker, hretired]))
  · have hends : Faulted b g o 0x11 pc s (s.siteFault { bench := b, pc := pc, walker := true } 0x11) :=
      siteFault_faulted (x := { bench := b, pc := pc, walker := true }) hexec 0x11
    exact ⟨_, by rw [exec_walkerSearch_of_retired hlaunch hretired hawake, after_of_faulted hexec hends], hends⟩

end Sys2Proof.Machine
end
